-- ==== Sys2Proof/Word.lean ====
section
/-!
DEFINITION. The units of the station line: a byte, and a 16-bit check register.
Counts, times and sequence numbers are plain numbers: the spec saturates or restarts them, it never lets them wrap.
-/

namespace Sys2Proof

/-- One byte of a frame (R184). -/
abbrev Byte := BitVec 8

/-- The register of the frame check (R125). -/
abbrev Check := BitVec 16

end Sys2Proof
end

