-- ==== Sys2Proof/Syntax.lean ====
section
/-!
DEFINITION. The commands of the block: one constructor of `Instr` for each row of spec/opcode_table.json, and the
types of what comes from outside with a command.

`dt` is the number of microseconds that have passed since the command before it (log 3). A command that the
station's own timers bring has no `dt`: it falls at the moment the timer reaches its limit. A reset has none either:
both timers start again from 0.
-/

namespace Sys2Proof

/-- One symbol of the phase code, one bit time long (R184). -/
inductive Symbol where
  | bit (b : Bool)
  | vHigh
  | vLow
  deriving DecidableEq, Repr

/-- A frame between its delimiters, less length and check (Table 7-1): kind, source, destination and payload. -/
structure Frame where
  kind : Byte
  src : Byte
  dst : Byte
  payload : List Byte
  deriving DecidableEq, Repr

/-- What was heard of a frame up to the end of its end delimiter, in the places of Table 10-1: the symbols before the
start delimiter, those in its place, those between the delimiters, and those in the end delimiter's place. -/
structure Heard where
  lead : List Symbol
  start : List Symbol
  content : List Symbol
  finish : List Symbol
  deriving DecidableEq, Repr

/-- How a reception ended that brought no valid frame (R137, R138): the line became quiet before an end delimiter, or
what was heard ended where the end delimiter stands. -/
inductive ReceptionEnd where
  | becameQuiet
  | atDelimiter (heard : Heard)
  deriving DecidableEq, Repr

/-- The strap levels sampled in STARTING (R167). -/
structure Straps where
  address : BitVec 5
  setup : Bool
  profile : Bool
  deriving DecidableEq, Repr

/-- The converter's readings of one scan (R67); the references count on a check scan only. -/
structure Conversions where
  an0 : BitVec 12
  an1 : BitVec 12
  an2 : BitVec 12
  an3 : BitVec 12
  refH : BitVec 12
  refL : BitVec 12
  deriving DecidableEq, Repr

/-- How far STARTING gets (R17, R167): to its end, or until the reset that is the next command strikes, before the
restore has changed anything or after the restore (and the history lost indication) is complete. -/
inductive StartingEnd where
  | completes
  | struckBeforeRestore
  | struckAfterRestore
  deriving DecidableEq, Repr

/-- What the supply does within STARTING (R167, R181, R182), with the microseconds since the moment before it: it
falls below the warning threshold, rises above the hysteresis, dips below it; or the restore timer reaches 10 ms. -/
inductive SupplyMoment where
  | fall (dt : Nat)
  | rise (dt : Nat)
  | dip (dt : Nat)
  | restored
  deriving DecidableEq, Repr

/-- What the supply monitor sees from the end of a reset to the end of STARTING: whether the supply is below the warning
threshold at the end of the reset (R183), and what it does after that. -/
structure SupplyCourse where
  below : Bool
  moments : List SupplyMoment
  deriving DecidableEq, Repr

/-- The steps that have more to do on the covered state after the write of an entry: a trigger request, a further entry, or
a join or comparison. Each stands for the command of its name. -/
inductive EventStep where
  | resetEnd (straps : Straps) (supply : SupplyCourse) (starting : Nat) (levels : BitVec 12)
  | setupWindowExpiry (levels : BitVec 12)
  | setupEnd (dt : Nat) (dst : Byte) (levels : BitVec 12)
  | inputEdge (dt : Nat) (n : Fin 12)
  | qualifyTimeExpiry (n : Fin 12)
  | scanEvaluation (dt : Nat) (c : Conversions)
  | beaconReceived (dt : Nat) (src dst : Byte) (payload : List Byte)
  | triggerReceived (dt : Nat) (src dst : Byte) (payload : List Byte)
  | eventReceived (dt : Nat) (src dst : Byte) (payload : List Byte)
  | otherFrameReceived (dt : Nat) (frame : Frame)
  | supplyFallBelowWarning (dt : Nat)
  deriving DecidableEq, Repr

/-- Where a retaining reset strikes (R15, R19, R82, R101; log 7): between two steps; inside an operation on the covered
state, before its check update; or inside `step` between two such operations, at a point of it that `passed` other points
come before. The points of a step are the end of each local event's write step, the end of that event's handling, and the
end of each write of a heard frame. -/
inductive Struck where
  | between
  | inFlight
  | inStep (step : EventStep) (passed : Nat)
  deriving DecidableEq, Repr

/-- The commands, in the table's order. -/
inductive Instr where
  /-- RESET_POWER_ON (R165). -/
  | resetPowerOn
  /-- RESET_SUPPLY_LOW (R165), and where it strikes. -/
  | resetSupplyLow (struck : Struck)
  /-- RESET_PIN (R165), and where it strikes. -/
  | resetPin (struck : Struck)
  /-- RESET_END (R165, R167): the strap levels, what the supply does until the end of STARTING (R183), how long STARTING
  goes on after its last moment, how far STARTING gets, and the input levels if it ends in RUNNING (R171). -/
  | resetEnd (straps : Straps) (supply : SupplyCourse) (starting : Nat) (ending : StartingEnd) (levels : BitVec 12)
  /-- SETUP_WINDOW_EXPIRY (R170), with the input levels sampled at entry to RUNNING. -/
  | setupWindowExpiry (levels : BitVec 12)
  /-- INPUT_EDGE (R51): the sample of input `n` differs from the one before it. -/
  | inputEdge (dt : Nat) (n : Fin 12)
  /-- QUALIFY_TIME_EXPIRY (R52). -/
  | qualifyTimeExpiry (n : Fin 12)
  /-- REPEAT_TIMER_EXPIRY (R57). -/
  | repeatTimerExpiry (n : Fin 12)
  /-- CHATTER_WINDOW_EXPIRY (R58). -/
  | chatterWindowExpiry (n : Fin 12)
  /-- REST_TIMER_EXPIRY (R61). -/
  | restTimerExpiry (n : Fin 12)
  /-- SCAN_START (R67). -/
  | scanStart
  /-- SCAN_EVALUATION (R80): the conversions are done. -/
  | scanEvaluation (dt : Nat) (c : Conversions)
  /-- POST_TIME_EXPIRY (R38). -/
  | postTimeExpiry
  /-- HOLD_LIMIT_EXPIRY (R40). -/
  | holdLimitExpiry
  /-- BEACON_DUE (R104). -/
  | beaconDue
  /-- SYNC_TIMER_EXPIRY (R110). -/
  | syncTimerExpiry
  /-- TIME_COUNT_TOP (R102). -/
  | timeCountTop
  /-- PEER_PRESENCE_EXPIRY (R116). -/
  | peerPresenceExpiry (peer : BitVec 5)
  /-- CLASH_WINDOW_EXPIRY (R119). -/
  | clashWindowExpiry
  /-- IDLE_GAP_MET (R123). -/
  | idleGapMet
  /-- ARBITER_SELECT (R128). -/
  | arbiterSelect
  /-- STAGING_END (R129). -/
  | stagingEnd
  /-- ACTIVITY_BEGINS (R137). -/
  | activityBegins (dt : Nat)
  /-- COLLISION (R132). Where it abandons the reply of an owed RESTART, `struck` says where the reset that follows strikes
  (R16, R19, R163; log 18); nothing else reads it. -/
  | collision (dt : Nat) (struck : Struck := .between)
  /-- BACKOFF_EXPIRY (R134). -/
  | backoffExpiry
  /-- TRANSMISSION_COMPLETE (R131). Where it ends the reply of an owed RESTART, `struck` says where the reset that follows
  strikes (R16, R19, R163; log 18); nothing else reads it. -/
  | transmissionComplete (struck : Struck := .between)
  /-- ACTIVITY_TIME_EXPIRY (R141). -/
  | activityTimeExpiry
  /-- RECEPTION_BROKEN (R137). -/
  | receptionBroken (dt : Nat) (how : ReceptionEnd)
  /-- BEACON_RECEIVED (R109): header and payload of the frame, whose check was found equal. -/
  | beaconReceived (dt : Nat) (src dst : Byte) (payload : List Byte)
  /-- TRIGGER_RECEIVED (R30). -/
  | triggerReceived (dt : Nat) (src dst : Byte) (payload : List Byte)
  /-- EVENT_RECEIVED (R117). -/
  | eventReceived (dt : Nat) (src dst : Byte) (payload : List Byte)
  /-- CLASH_FRAME_RECEIVED (R118): any kind; its source is the own address. -/
  | clashFrameReceived (dt : Nat) (kind dst : Byte) (payload : List Byte)
  /-- OTHER_FRAME_RECEIVED (R139). -/
  | otherFrameReceived (dt : Nat) (frame : Frame)
  /-- QUERY (R154). -/
  | query (dt : Nat) (dst page : Byte)
  /-- FETCH (R157). -/
  | fetch (dt : Nat) (dst : Byte) (start : BitVec 32)
  /-- PEERS (R158). -/
  | peers (dt : Nat) (dst : Byte)
  /-- RELEASE (R159): origin 0 names any capture. -/
  | release (dt : Nat) (dst origin serial : Byte)
  /-- FORCE (R160). -/
  | force (dt : Nat) (dst : Byte)
  /-- CONFIG (R175): the payload is the section number and the section body. -/
  | config (dt : Nat) (dst : Byte) (payload : List Byte)
  /-- SETUP_END (R162), with the input levels sampled if it brings the station to RUNNING. -/
  | setupEnd (dt : Nat) (dst : Byte) (levels : BitVec 12)
  /-- RESTART (R163). -/
  | restart (dt : Nat) (dst : Byte)
  /-- SUPPLY_FALL_BELOW_WARNING (R181). -/
  | supplyFallBelowWarning (dt : Nat)
  /-- SUPPLY_RISE_ABOVE_HYSTERESIS (R182). -/
  | supplyRiseAboveHysteresis (dt : Nat)
  /-- SUPPLY_DIP_BELOW_HYSTERESIS (R182). -/
  | supplyDipBelowHysteresis (dt : Nat)
  /-- RESTORE_TIMER_EXPIRY (R182). -/
  | restoreTimerExpiry
  /-- LINE_BECOMES_QUIET (R123). -/
  | lineBecomesQuiet (dt : Nat)
  /-- FRAME_START_INSTANT (R124). -/
  | frameStartInstant (dt : Nat)
  /-- SUPPLY_BELOW_RETENTION_LEVEL (R16). -/
  | supplyBelowRetentionLevel
  deriving DecidableEq, Repr

end Sys2Proof
end

