-- ==== Sys2Proof/Decode.lean ====
section
/-!
DEFINITION. Command words. No row of spec/opcode_table.json gives bits (every "fields" list is empty), so no word
spells a command.
-/

namespace Sys2Proof

/-- The command a word spells by the table's bits: none, since the table gives none. -/
def decodeTableWord (_nbits _w : Nat) : Option Instr := none

end Sys2Proof
end

