-- ==== Sys2Proof/Config.lean ====
section
/-!
DEFINITION. What the spec leaves open: free constants, with no body, so that no proof can lean on a value.
-/

namespace Sys2Proof

/-- Whether "a subject outside Table 10-10" (R188) is judged by the sort of subject the record's kind has (an input
code only for an input kind, and so on), or by the whole table. The spec's words allow both readings
(DESIGN CHOICE to leave it free, log 12). -/
opaque Config.subjectByKind : Bool

/-- What post elapsed and frozen elapsed hold from a retaining reset on (R14: neither is retained, and R45 and R47 give
frozen elapsed a value at entry to RUNNING alone): free values, one for each draw (DESIGN CHOICE to leave them free,
log 19). -/
opaque Config.postElapsed : Nat → Nat
opaque Config.frozenElapsed : Nat → Nat

end Sys2Proof
end

