-- ==== Sys2Proof/Machine/Types.lean ====
section
/-!
DEFINITION. The names, records and settings the blocks of the station hold.
-/

namespace Sys2Proof.Machine

/-- Sync state of a station (R110). -/
inductive SyncState where
  | free
  | synced
  | lost
  deriving DecidableEq, Repr

/-- The four operating states, and the reset causes (R165, R167). -/
inductive OperatingState where
  | starting
  | startFault
  | setup
  | running
  deriving DecidableEq, Repr

inductive ResetCause where
  | powerOn
  | supplyLow
  | pin
  | restartRequest
  deriving DecidableEq, Repr

/-- Event kinds (Table 10-9); the class follows from the kind. -/
inductive Kind where
  | inputRise
  | inputFall
  | inputStillActive
  | chatterStart
  | chatterEnd
  | analogHigh
  | analogLow
  | analogNormal
  | analogSnapshot
  | timeStep
  | syncGained
  | syncLost
  | stationStart
  | peersPresent
  | historyLost
  | sequenceRestart
  | gap
  | analogFault
  | analogRecovered
  | lineStuck
  | lineRecovered
  | addressClash
  | addressClashEnd
  | supplyWarning
  | supplyRestored
  | peerSeen
  | peerLost
  | triggerMark
  | triggerSeen
  | triggerNotSent
  | captureReleased
  deriving DecidableEq, Repr

/-- The threshold an analog trigger passed (Table 2-3). -/
inductive Side where
  | high
  | low
  deriving DecidableEq, Repr

/-- How a station came into a capture (Table 2-3). -/
inductive Cause where
  | localInput (n : Nat)
  | localAnalog (ch : Nat) (side : Side)
  | forced
  | supplyWarning
  | peerTrigger
  | peerBeacon
  deriving DecidableEq, Repr

/-- Why a capture was released (R42). -/
inductive ReleaseReason where
  | request
  | holdLimit
  deriving DecidableEq, Repr

/-- Why POST ended (Table 2-1). -/
inductive FreezeReason where
  | countReached
  | timeElapsed
  | cutShort
  deriving DecidableEq, Repr

/-- A capture tag: origin address and the origin's serial (R1 Note 1). -/
structure Tag where
  origin : Nat
  serial : Nat
  deriving DecidableEq, Repr

/-- What a CAPTURE entry carries beside tag origin and trigger time (Tables 2-4, 10-12). -/
inductive CaptureDetail where
  | marked (cause : Cause)
  | seen (adopted : Bool)
  | notSent
  | released (unrecorded : Nat) (reason : ReleaseReason)
  deriving DecidableEq, Repr

structure CaptureContent where
  serial : Nat
  detail : CaptureDetail
  deriving DecidableEq, Repr

/-- An entry as it is handed to the ring: every field of Table 1-1 but the seq. The subject is coded by Table 10-10
and the value packed by Table 10-11; a CAPTURE entry has its tag's serial and its detail in `capture`. -/
structure Draft where
  time : Nat
  origin : Nat
  originSeq : Option Nat
  kind : Kind
  subject : Option Nat
  value : Option Nat
  capture : Option CaptureContent
  sync : SyncState
  deriving DecidableEq, Repr

/-- An entry of the ring (R1): a draft and the seq the ring assigned. -/
structure Entry where
  seq : Nat
  body : Draft
  deriving DecidableEq, Repr

/-- Whether the stored retention check matches the covered state (R14; DEDUCED: the check's value is internal and
only its comparison is observable, log 6). -/
inductive RetentionCheck where
  | matching
  | mismatched
  deriving DecidableEq, Repr

/-- The history ring (R3). -/
structure Ring where
  positions : List (Option Entry)
  newest : Nat
  held : Nat
  nextSeq : Nat
  check : RetentionCheck
  deriving DecidableEq, Repr

/-- The outcome of a read (R10 to R12). -/
inductive ReadOutcome where
  | inPlace
  | startMoved
  | noneYet
  deriving DecidableEq, Repr

/-- A tag with its trigger time (seen list, pending TRIGGER frame). -/
structure TimedTag where
  tag : Tag
  time : Nat
  deriving DecidableEq, Repr

/-- The POST/FROZEN fields of the capture record that are covered by the retention check (Table 2-1). -/
structure Current where
  tag : Tag
  triggerTime : Nat
  cause : Cause
  markSeq : Nat
  deriving DecidableEq, Repr

/-- The capture state with the fields present in it (Table 2-1). -/
inductive CaptureState where
  | off
  | armed
  | post (cur : Current)
  | frozen (cur : Current) (reason : FreezeReason)
  deriving DecidableEq, Repr

/-- The capture record less its two running durations (R14, R20). -/
structure CaptureRecord where
  st : CaptureState
  postWritten : Nat
  retag : Nat
  seen : List TimedTag
  overflow : Bool
  unrecorded : Nat
  deriving DecidableEq, Repr

/-- A duration on the elapsed timer: running since a moment, or stopped at a value. -/
inductive Stopwatch where
  | running (since : Nat)
  | stopped (value : Nat)
  deriving DecidableEq, Repr

/-- The Capture Controller. -/
structure CaptureController where
  record : CaptureRecord
  serial : Nat
  pendingTrigger : Option TimedTag
  postClock : Option Stopwatch
  frozenClock : Option Stopwatch
  deriving DecidableEq, Repr

/-- A qualification (R52). -/
structure Qualification where
  edgeTime : Nat
  target : Bool
  since : Nat
  deriving DecidableEq, Repr

structure ChatterWindow where
  count : Nat
  since : Nat
  deriving DecidableEq, Repr

structure RepeatTimer where
  since : Nat
  produced : Nat
  deriving DecidableEq, Repr

/-- The mode of an input, with what runs in it (Table 3-3). -/
inductive InputMode where
  | normal (window : Option ChatterWindow) (repeatTimer : Option RepeatTimer)
  | suspended (restSince : Nat)
  deriving DecidableEq, Repr

/-- The state record of one input (Table 3-3). -/
structure InputRecord where
  level : Option Bool
  qual : Option Qualification
  mode : InputMode
  deriving DecidableEq, Repr

/-- A run of readings (Table 4-4). -/
structure Run where
  count : Nat
  firstTime : Nat
  deriving DecidableEq, Repr

/-- The excursion record of a channel (Table 4-4). -/
inductive Excursion where
  | normal (highRun lowRun : Option Run)
  | high (returnRun crossRun : Option Run)
  | low (returnRun crossRun : Option Run)
  deriving DecidableEq, Repr

/-- The reference state (R71). -/
inductive Reference where
  | healthy
  | fault (passes : Nat)
  deriving DecidableEq, Repr

/-- The scan under way (R67, R68): its time and which readings it evaluates. -/
inductive Scan where
  | settling (time : Nat)
  | counted (time : Nat)
  deriving DecidableEq, Repr

/-- The Analog Scanner. -/
structure Scanner where
  nextScan : Option Nat
  settled : Bool
  scan : Option Scan
  channels : List Excursion
  checkPos : Option Nat
  reference : Reference
  intervalPos : Option Nat
  offset : Option Nat
  dither : Nat
  deriving DecidableEq, Repr

/-- An entry of the announcement queue (R87). -/
structure QueueEntry where
  time : Nat
  kind : Kind
  subject : Option Nat
  value : Option Nat
  sync : SyncState
  ownSeq : Option Nat
  deriving DecidableEq, Repr

/-- The batch in flight: its records are the first `records` entries of the queue (R92). -/
structure Batch where
  number : Nat
  drops : Nat
  records : Nat
  deriving DecidableEq, Repr

/-- The Event Router. -/
structure Router where
  queue : List QueueEntry
  drops : Nat
  batch : Option Batch
  batchNumber : Nat
  deriving DecidableEq, Repr

/-- The beacon schedule: its origin and how many due moments have come (R104). -/
structure Schedule where
  origin : Nat
  taken : Nat
  deriving DecidableEq, Repr

/-- The Time Unit. -/
structure TimeUnit where
  timeCount : Nat
  elapsed : Nat
  sync : SyncState
  syncSince : Option Nat
  schedule : Option Schedule
  beaconPending : Bool
  deriving DecidableEq, Repr

/-- The capture state a beacon names (Table 6-1). -/
inductive CaptureCode where
  | off
  | armed
  | post
  | frozen
  deriving DecidableEq, Repr

/-- The beacon part of a peer entry (Table 6-3). -/
structure BeaconPart where
  sync : SyncState
  capture : CaptureCode
  deriving DecidableEq, Repr

/-- A peer table entry (Table 6-3); since-last-frame is held as the moment it started from 0. -/
structure PeerEntry where
  present : Bool
  lastFrame : Nat
  lastBatch : Option Nat
  beacon : Option BeaconPart
  deriving DecidableEq, Repr

/-- The Peer Monitor: the entries of addresses 1 to 30 in address order, and the clash window. -/
structure PeerMonitor where
  peers : List PeerEntry
  clashSince : Option Nat
  deriving DecidableEq, Repr

/-- The four frame sources (R127). -/
inductive Source where
  | trigger
  | reply
  | beacon
  | event
  deriving DecidableEq, Repr

/-- A frame staged or being sent, and the source it serves. -/
structure Outgoing where
  source : Source
  frame : Frame
  deriving DecidableEq, Repr

/-- The line state with what the frame buffer holds in it (R126). `receiving stamp`: the receive stamp once a start
delimiter has been found. `transmitting … withdrawn`: the attempt count the item had when its source ended it while
the frame was going out (R136). -/
inductive LineState where
  | quiet
  | receiving (stamp : Option Nat)
  | staged (since : Nat) (out : Outgoing)
  | transmitting (since : Nat) (out : Outgoing) (withdrawn : Option Nat)
  | backoff
  | stuck
  deriving DecidableEq, Repr

/-- The frame buffer (Table 7-2): empty, or one frame being received, staged or sent. What has arrived of a frame being
received comes with the command that ends its reception (DEDUCED, log 22). -/
inductive FrameBuffer where
  | empty
  | receiving
  | staged (out : Outgoing)
  | sent (out : Outgoing)
  deriving DecidableEq, Repr

structure Attempts where
  trigger : Nat
  reply : Nat
  beacon : Nat
  event : Nat
  deriving DecidableEq, Repr

/-- The Line Controller (Table 7-2). -/
structure LineController where
  line : LineState
  backoffEnd : Option Nat
  attempts : Attempts
  quietSince : Option Nat
  activeSince : Option Nat
  generator : Nat
  good : Nat
  broken : Nat
  collisions : Nat
  abandoned : Nat
  deriving DecidableEq, Repr

/-- The Request Handler (R149, R163). -/
structure RequestHandler where
  slot : Option Frame
  restartOwed : Bool
  deriving DecidableEq, Repr

/-- Sensitivity of an input (Table 3-2). -/
inductive Sensitivity where
  | off
  | rise
  | fall
  | both
  deriving DecidableEq, Repr

/-- Settings of an input (Table 3-2): q in 0.1 ms, R and rest in seconds. -/
structure InputSetting where
  sensitivity : Sensitivity
  qualify : Nat
  repeatEvery : Nat
  chatterLimit : Nat
  chatterRest : Nat
  trigger : Bool
  deriving DecidableEq, Repr

/-- Settings of a channel (Table 4-2). -/
structure ChannelSetting where
  enable : Bool
  high : Nat
  low : Nat
  hysteresis : Nat
  qualifyScans : Nat
  triggerHigh : Bool
  triggerLow : Bool
  snapshot : Bool
  deriving DecidableEq, Repr

/-- The ANALOG section (Tables 4-2, 4-3). -/
structure AnalogSection where
  channels : List ChannelSetting
  interval : Nat
  dither : Bool
  deriving DecidableEq, Repr

/-- The STATION section (Table 9-3): post time in 10 ms, hold limit in minutes, B in 10 ms, tolerance in µs; a mask
has bit c for class c. -/
structure StationSection where
  capture : Bool
  postCount : Nat
  postTime : Nat
  holdLimit : Nat
  recordMask : BitVec 8
  announceMask : BitVec 8
  heardMask : BitVec 8
  period : Nat
  tolerance : Nat
  deriving DecidableEq, Repr

/-- The configuration in force (9.4). -/
structure Configuration where
  inputsLow : List InputSetting
  inputsHigh : List InputSetting
  analog : AnalogSection
  station : StationSection
  deriving DecidableEq, Repr

/-- The configured marks (R173). -/
structure Marks where
  inputsLow : Bool
  inputsHigh : Bool
  analog : Bool
  station : Bool
  deriving DecidableEq, Repr

/-- The condition set (R180). -/
structure Conditions where
  startFault : Bool
  analogFault : Bool
  lineStuck : Bool
  addressClash : Bool
  supplyWarning : Bool
  deriving DecidableEq, Repr

/-- The supply state, with the restore timer of WARNING (R181, R182). -/
inductive Supply where
  | normal
  | warning (restoreSince : Option Nat)
  deriving DecidableEq, Repr

/-- The Start-up Controller (Table 9-1), and what R165 and R24 make it hold while a reset is held. -/
structure StartupController where
  op : OperatingState
  cause : ResetCause
  resetHeld : Bool
  belowPowerOn : Bool
  captHeld : Bool
  straps : Straps
  config : Configuration
  configured : Marks
  setupSince : Option Nat
  conditions : Conditions
  historyLost : Bool
  supply : Supply
  deriving DecidableEq, Repr

end Sys2Proof.Machine
end

