-- ==== Sys2Proof/Machine/Params.lean ====
section
/-!
DEFINITION. The spec's fixed numbers, in microseconds where they are times, and the codes of Tables 10-3 to 10-16.
-/

namespace Sys2Proof.Machine

/-- Top value of the time count (R102). -/
def timeTop : Nat := 281474976710655

/-- Ring positions (R3), and the value of next seq that means the last one has been used. -/
def ringSize : Nat := 512
def seqLimit : Nat := 4294967296

/-- Announcement queue, records per batch, seen list (R87, R92, R34). -/
def queueSize : Nat := 16
def batchRecords : Nat := 3
def seenSize : Nat := 6

/-- Collision limit (R135). -/
def collisionLimit : Nat := 12

/-- Saturation points: 8-bit and 16-bit counts. -/
def top8 : Nat := 255
def top16 : Nat := 65535

/-- Line times (R123, R129, R133, R141): idle gap, staging, slot, stuck line; and the frame start instant (R124). -/
def idleGap : Nat := 16
def stagingTime : Nat := 1
def slotTime : Nat := 32
def stuckTime : Nat := 1000
def startInstant : Nat := 12

/-- Scan interval, chatter window, setup window, restore time (R67, R58, R170, R182). -/
def scanInterval : Nat := 1000
def chatterSpan : Nat := 1000000
def setupWindow : Nat := 2000000
def restoreTime : Nat := 10000

/-- Units of settings, in microseconds: q (0.1 ms), seconds, post time and B (10 ms), hold limit (minutes). -/
def qualifyUnit : Nat := 100
def second : Nat := 1000000
def tenMs : Nat := 10000
def minute : Nat := 60000000

/-- Check cycle and reference bounds (R70). -/
def checkCycle : Nat := 64
def refHighMin : Nat := 4032
def refLowMax : Nat := 63

/-- Sync loss is at 4 × B; presence and address clash end at 8 × B (R110, R116, R119). -/
def syncPeriods : Nat := 4
def presencePeriods : Nat := 8

/-- Generator seeds less the address (R133, R79). -/
def backoffSeed : Nat := 1000
def ditherSeed : Nat := 2000

/-- Broadcast destination (1.2). -/
def broadcast : Byte := 31#8

/-- A count that stops at its top value (5.2). -/
def satAdd (top n k : Nat) : Nat := min (n + k) top

/-- A cyclic number passes from 255 to 1 (5.2). -/
def cyclicNext (n : Nat) : Nat := if n ≥ top8 then 1 else n + 1

/-- Frame kind codes (Table 10-3). -/
def kindBeacon : Byte := 0x11#8
def kindTrigger : Byte := 0x12#8
def kindEvent : Byte := 0x13#8
def kindQuery : Byte := 0x21#8
def kindFetch : Byte := 0x22#8
def kindPeers : Byte := 0x23#8
def kindRelease : Byte := 0x24#8
def kindForce : Byte := 0x25#8
def kindConfig : Byte := 0x26#8
def kindSetupEnd : Byte := 0x27#8
def kindRestart : Byte := 0x28#8
def kindState : Byte := 0x31#8
def kindEntries : Byte := 0x32#8
def kindPeerList : Byte := 0x33#8
def kindResult : Byte := 0x34#8

/-- Result codes (10.5). -/
inductive ResultCode where
  | done
  | wrongState
  | tagMismatch
  | outOfRange
  | unknownSection
  | setupClosed
  | captureOff
  deriving DecidableEq, Repr

def ResultCode.code : ResultCode → Byte
  | .done => 0#8
  | .wrongState => 1#8
  | .tagMismatch => 2#8
  | .outOfRange => 3#8
  | .unknownSection => 4#8
  | .setupClosed => 5#8
  | .captureOff => 6#8

/-- Codes of the sync state, the operating state and the reset cause (Tables 10-4, 10-15, 10-11). -/
def SyncState.code : SyncState → Nat
  | .free => 0
  | .synced => 1
  | .lost => 2

def SyncState.ofCode : Nat → Option SyncState
  | 0 => some .free
  | 1 => some .synced
  | 2 => some .lost
  | _ => none

def OperatingState.code : OperatingState → Nat
  | .starting => 0
  | .startFault => 1
  | .setup => 2
  | .running => 3

def ResetCause.code : ResetCause → Nat
  | .powerOn => 0
  | .supplyLow => 1
  | .pin => 2
  | .restartRequest => 3

def CaptureCode.code : CaptureCode → Nat
  | .off => 0
  | .armed => 1
  | .post => 2
  | .frozen => 3

def CaptureCode.ofCode : Nat → Option CaptureCode
  | 0 => some .off
  | 1 => some .armed
  | 2 => some .post
  | 3 => some .frozen
  | _ => none

def CaptureState.name : CaptureState → CaptureCode
  | .off => .off
  | .armed => .armed
  | .post _ => .post
  | .frozen _ _ => .frozen

/-- The POST/FROZEN fields, absent in ARMED and OFF (Table 2-1). -/
def CaptureState.current : CaptureState → Option Current
  | .off => none
  | .armed => none
  | .post cur => some cur
  | .frozen cur _ => some cur

def FreezeReason.code : FreezeReason → Nat
  | .countReached => 1
  | .timeElapsed => 2
  | .cutShort => 3

def ReleaseReason.code : ReleaseReason → Nat
  | .request => 0
  | .holdLimit => 1

/-- Cause codes (Table 10-13). -/
def Cause.code : Cause → Nat
  | .localInput n => n
  | .localAnalog ch .high => 0x10 + ch
  | .localAnalog ch .low => 0x14 + ch
  | .forced => 0x20
  | .supplyWarning => 0x21
  | .peerTrigger => 0x22
  | .peerBeacon => 0x23

/-- The class of a kind (Table 10-9). -/
def Kind.class : Kind → Nat
  | .inputRise => 0
  | .inputFall => 0
  | .inputStillActive => 1
  | .chatterStart => 2
  | .chatterEnd => 2
  | .analogHigh => 3
  | .analogLow => 3
  | .analogNormal => 3
  | .analogSnapshot => 4
  | .timeStep => 5
  | .syncGained => 5
  | .syncLost => 5
  | .stationStart => 6
  | .peersPresent => 6
  | .historyLost => 6
  | .sequenceRestart => 6
  | .gap => 6
  | .analogFault => 6
  | .analogRecovered => 6
  | .lineStuck => 6
  | .lineRecovered => 6
  | .addressClash => 6
  | .addressClashEnd => 6
  | .supplyWarning => 6
  | .supplyRestored => 6
  | .peerSeen => 6
  | .peerLost => 6
  | .triggerMark => 7
  | .triggerSeen => 7
  | .triggerNotSent => 7
  | .captureReleased => 7

/-- The number of a kind within its class (Table 10-9). -/
def Kind.number : Kind → Nat
  | .inputRise => 0
  | .inputFall => 1
  | .inputStillActive => 0
  | .chatterStart => 0
  | .chatterEnd => 1
  | .analogHigh => 0
  | .analogLow => 1
  | .analogNormal => 2
  | .analogSnapshot => 0
  | .timeStep => 0
  | .syncGained => 1
  | .syncLost => 2
  | .stationStart => 0
  | .peersPresent => 1
  | .historyLost => 2
  | .sequenceRestart => 3
  | .gap => 4
  | .analogFault => 5
  | .analogRecovered => 6
  | .lineStuck => 7
  | .lineRecovered => 8
  | .addressClash => 9
  | .addressClashEnd => 10
  | .supplyWarning => 11
  | .supplyRestored => 12
  | .peerSeen => 13
  | .peerLost => 14
  | .triggerMark => 0
  | .triggerSeen => 1
  | .triggerNotSent => 2
  | .captureReleased => 3

/-- The class-and-kind byte: 32 × class + kind (10.4). -/
def Kind.code (k : Kind) : Nat := 32 * k.class + k.number

/-- Every kind Table 10-9 lists. -/
def Kind.all : List Kind :=
  [.inputRise, .inputFall, .inputStillActive, .chatterStart, .chatterEnd, .analogHigh, .analogLow, .analogNormal,
   .analogSnapshot, .timeStep, .syncGained, .syncLost, .stationStart, .peersPresent, .historyLost,
   .sequenceRestart] ++
  [.gap, .analogFault, .analogRecovered, .lineStuck, .lineRecovered, .addressClash, .addressClashEnd,
   .supplyWarning, .supplyRestored, .peerSeen, .peerLost, .triggerMark, .triggerSeen, .triggerNotSent,
   .captureReleased]

/-- The kind of a class-and-kind byte, if Table 10-9 lists it. -/
def Kind.ofCode (c : Nat) : Option Kind := Kind.all.find? (fun k => k.code == c)

end Sys2Proof.Machine
end

