-- ==== Sys2Proof/Machine/Profiles.lean ====
section
/-!
DEFINITION. The two built-in profiles (R174; Tables 3-2, 4-2, 4-3, 9-3).
-/

namespace Sys2Proof.Machine

/-- Both profiles: BOTH, q 2.0 ms, no repeat, chatter limit 20, rest 3 s. -/
def profileInput (trigger : Bool) : InputSetting :=
  { sensitivity := .both, qualify := 20, repeatEvery := 0, chatterLimit := 20, chatterRest := 3, trigger }

/-- A channel of profile 1. -/
def profileChannel : ChannelSetting :=
  { enable := true, high := 3500, low := 500, hysteresis := 100, qualifyScans := 3, triggerHigh := false,
    triggerLow := false, snapshot := true }

/-- A channel of profile 0: not enabled. Table 4-2 gives its other settings no value and they have no effect (R66);
they are held as an ANALOG section could hold them (DESIGN CHOICE, log 20). -/
def profileChannelOff : ChannelSetting :=
  { enable := false, high := 1, low := 0, hysteresis := 0, qualifyScans := 1, triggerHigh := false,
    triggerLow := false, snapshot := false }

/-- INPUT_CHANGE, INPUT_CHATTER, ANALOG_EXCURSION and STATION: classes 0, 2, 3 and 6 (R84). -/
def profileMask : BitVec 8 := 0x4D#8

/-- Table 9-3; the profiles differ in the capture setting alone. -/
def profileStation (capture : Bool) : StationSection :=
  { capture, postCount := 255, postTime := 200, holdLimit := 0, recordMask := 0x7F#8, announceMask := profileMask,
    heardMask := profileMask, period := 10, tolerance := 10 }

/-- Profile 0. -/
def profile0 : Configuration :=
  { inputsLow := List.replicate 6 (profileInput false), inputsHigh := List.replicate 6 (profileInput false),
    analog := { channels := List.replicate 4 profileChannelOff, interval := 0, dither := false },
    station := profileStation false }

/-- Profile 1: inputs 0 to 3 are trigger-enabled. -/
def profile1 : Configuration :=
  { inputsLow := List.replicate 4 (profileInput true) ++ List.replicate 2 (profileInput false),
    inputsHigh := List.replicate 6 (profileInput false),
    analog := { channels := List.replicate 4 profileChannel, interval := 1000, dither := true },
    station := profileStation true }

/-- The profile the PROFILE strap selects (R173). -/
def profileOf (strap : Bool) : Configuration := if strap then profile1 else profile0

end Sys2Proof.Machine
end

