-- ==== Sys2Proof/Machine/State.lean ====
section
/-!
DEFINITION. The state of the block: its ten blocks and the queue of waiting commands; the state right after reset.
-/

namespace Sys2Proof.Machine

/-- The spec gives the block no stop: no meaning answers a fault. -/
inductive Fault where
  deriving DecidableEq, Repr

/-- Why a command is refused. -/
inductive Refusal where
  /-- A command without a meaning; no arm of `exec` raises it (safe: a claim about that command is unprovable). -/
  | notModelled (mnemonic : String)
  deriving DecidableEq, Repr

/-- The ten blocks of 00_scope.md section 2.1, and the commands that are waiting, first in, first out. Two fields are the
model's own: `drawn`, how many values that the spec leaves open have been drawn (log 19), and `cut`, set inside a
reset's step alone: how many more points the step passes before the reset strikes at the next one (log 7). -/
structure State where
  hr : Ring
  cc : CaptureController
  iq : List InputRecord
  an : Scanner
  er : Router
  tu : TimeUnit
  pm : PeerMonitor
  lc : LineController
  rh : RequestHandler
  sc : StartupController
  drawn : Nat
  cut : Option Nat
  pending : List Instr
  deriving DecidableEq, Repr

/-- The empty ring (R7). -/
def Ring.initial : Ring :=
  { positions := List.replicate ringSize none, newest := 511, held := 0, nextSeq := 1, check := .matching }

/-- The cleared capture record (R20). -/
def CaptureRecord.cleared : CaptureRecord :=
  { st := .armed, postWritten := 0, retag := 0, seen := [], overflow := false, unrecorded := 0 }

/-- The cleared record of an input (R49). -/
def InputRecord.cleared : InputRecord := { level := none, qual := none, mode := .normal none none }

/-- The scanner after every reset (Table 4-5); the generator is seeded later, once the straps are read. -/
def Scanner.initial (dither : Nat) : Scanner :=
  { nextScan := none, settled := false, scan := none, channels := List.replicate 4 (.normal none none),
    checkPos := none, reference := .healthy, intervalPos := none, offset := none, dither }

/-- The router after every reset (Table 5-3). -/
def Router.initial : Router := { queue := [], drops := 0, batch := none, batchNumber := 0 }

/-- The Time Unit after every reset (Table 6-2). -/
def TimeUnit.initial : TimeUnit :=
  { timeCount := 0, elapsed := 0, sync := .free, syncSince := none, schedule := none, beaconPending := false }

/-- A cleared peer entry, and the Peer Monitor after every reset (R113, Table 6-5). -/
def PeerEntry.cleared : PeerEntry := { present := false, lastFrame := 0, lastBatch := none, beacon := none }

def PeerMonitor.initial : PeerMonitor := { peers := List.replicate 30 PeerEntry.cleared, clashSince := none }

/-- The Line Controller after every reset (Table 7-2). -/
def LineController.initial (generator : Nat) : LineController :=
  { line := .quiet, backoffEnd := none, attempts := ⟨0, 0, 0, 0⟩, quietSince := none, activeSince := none, generator,
    good := 0, broken := 0, collisions := 0, abandoned := 0 }

/-- The Request Handler after every reset (Table 8-4). -/
def RequestHandler.initial : RequestHandler := { slot := none, restartOwed := false }

/-- The empty condition set (R180). -/
def Conditions.empty : Conditions :=
  { startFault := false, analogFault := false, lineStuck := false, addressClash := false, supplyWarning := false }

/-- The machine right after reset: a power-on reset that is still held (R18, R165, R166). Straps, configuration and
generator contents before the straps are read are the model's choice (DESIGN CHOICE, log 9). -/
def State.reset : State :=
  { hr := Ring.initial
    cc := { record := CaptureRecord.cleared, serial := 0, pendingTrigger := none, postClock := none,
            frozenClock := none }
    iq := List.replicate 12 InputRecord.cleared
    an := Scanner.initial ditherSeed
    er := Router.initial
    tu := TimeUnit.initial
    pm := PeerMonitor.initial
    lc := LineController.initial backoffSeed
    rh := RequestHandler.initial
    sc := { op := .starting, cause := .powerOn, resetHeld := true, belowPowerOn := true, captHeld := true,
            straps := ⟨0#5, false, false⟩, config := profile0, configured := ⟨false, false, false, false⟩,
            setupSince := none, conditions := Conditions.empty, historyLost := false, supply := .normal }
    drawn := 0
    cut := none
    pending := [] }

end Sys2Proof.Machine
end

