-- ==== Sys2Proof/Machine/Flags.lean ====
section
/-!
DEFINITION. The condition set, and the two output pins as views of the state (R24, R180).
-/

namespace Sys2Proof.Machine

/-- A member of the condition set (R180). -/
inductive Condition where
  | startFault
  | analogFault
  | lineStuck
  | addressClash
  | supplyWarning
  deriving DecidableEq, Repr

/-- Whether a member is present. -/
def Conditions.has (c : Conditions) : Condition → Bool
  | .startFault => c.startFault
  | .analogFault => c.analogFault
  | .lineStuck => c.lineStuck
  | .addressClash => c.addressClash
  | .supplyWarning => c.supplyWarning

/-- Set or clear one member (R180). -/
def Conditions.put (c : Conditions) (m : Condition) (v : Bool) : Conditions :=
  match m with
  | .startFault => { c with startFault := v }
  | .analogFault => { c with analogFault := v }
  | .lineStuck => { c with lineStuck := v }
  | .addressClash => { c with addressClash := v }
  | .supplyWarning => { c with supplyWarning := v }

/-- The set is not empty. -/
def Conditions.any (c : Conditions) : Bool :=
  c.startFault || c.analogFault || c.lineStuck || c.addressClash || c.supplyWarning

/-- The byte of Table 10-15, page 1. -/
def Conditions.code (c : Conditions) : Nat :=
  c.startFault.toNat + 2 * c.analogFault.toNat + 4 * c.lineStuck.toNat + 8 * c.addressClash.toNat +
    16 * c.supplyWarning.toNat

def State.setCondition (m : Condition) (v : Bool) (s : State) : State :=
  { s with sc := { s.sc with conditions := s.sc.conditions.put m v } }

/-- FLT is active exactly when the condition set is not empty (R180). -/
def State.flt (s : State) : Bool := s.sc.conditions.any

/-- A capture is held: POST or FROZEN. -/
def CaptureState.held (st : CaptureState) : Bool := st.current.isSome

/-- CAPT is active in POST and FROZEN, but from the start of a reset until the restore has decided the record (R24). -/
def State.capt (s : State) : Bool := !s.sc.captHeld && s.cc.record.st.held

/-- The capture state is FROZEN. -/
def CaptureState.isFrozen : CaptureState → Bool
  | .off => false
  | .armed => false
  | .post _ => false
  | .frozen _ _ => true

/-- The capture state is POST. -/
def CaptureState.isPost : CaptureState → Bool
  | .off => false
  | .armed => false
  | .post _ => true
  | .frozen _ _ => false

/-- The frame buffer (Table 7-2) as a view of the line state. -/
def State.frameBuffer (s : State) : FrameBuffer :=
  match s.lc.line with
  | .quiet => .empty
  | .receiving _ => .receiving
  | .staged _ out => .staged out
  | .transmitting _ out _ => .sent out
  | .backoff => .empty
  | .stuck => .empty

/-- The receive stamp (Table 7-2) as a view of the line state. -/
def State.receiveStamp (s : State) : Option Nat :=
  match s.lc.line with
  | .quiet => none
  | .receiving stamp => stamp
  | .staged _ _ => none
  | .transmitting _ _ _ => none
  | .backoff => none
  | .stuck => none

end Sys2Proof.Machine
end

