-- ==== Sys2Proof/Machine/LineCode.lean ====
section
/-!
DEFINITION. The frame on the pair: byte order, symbols, the check, and which received frames are broken
(R124, R125, R138, R184, R185).
-/

namespace Sys2Proof

open Machine

/-- The `w` low bytes of a number, most significant first (R184). -/
def natBE : Nat → Nat → List Byte
  | 0, _ => []
  | w + 1, n => BitVec.ofNat 8 (n / 256 ^ w) :: natBE w n

/-- The number a field of bytes holds, most significant byte first (R184). -/
def beNat (bs : List Byte) : Nat := bs.foldl (fun acc b => acc * 256 + b.toNat) 0

/-- The bits of a byte, most significant first (R184). -/
def byteBits (b : Byte) : List Bool :=
  [b.getLsbD 7, b.getLsbD 6, b.getLsbD 5, b.getLsbD 4, b.getLsbD 3, b.getLsbD 2, b.getLsbD 1, b.getLsbD 0]

/-- One bit taken into the check register (R125). -/
def crcBit (r : Check) (b : Bool) : Check :=
  if r.getLsbD 15 != b then (r <<< 1) ^^^ 0x1021#16 else r <<< 1

/-- The check over a run of bytes (R125). -/
def crc (bs : List Byte) : Check := (bs.flatMap byteBits).foldl crcBit 0xFFFF#16

/-- The bytes the check covers: header and payload (Table 10-2). -/
def Frame.covered (f : Frame) : List Byte :=
  f.kind :: f.src :: f.dst :: BitVec.ofNat 8 f.payload.length :: f.payload

/-- The bytes between the delimiters: those covered, then the check, most significant byte first (R125). -/
def Frame.content (f : Frame) : List Byte := f.covered ++ natBE 2 (crc f.covered).toNat

/-- The levels of a symbol in the two halves of its bit time, high as true (R184). -/
def Symbol.levels : Symbol → Bool × Bool
  | .bit true => (false, true)
  | .bit false => (true, false)
  | .vHigh => (true, true)
  | .vLow => (false, false)

/-- The fixed parts of a frame (Table 10-1). -/
def preamble : List Symbol := (List.replicate 8 [Symbol.bit true, Symbol.bit false]).flatten

def startDelimiter : List Symbol :=
  [.vHigh, .vLow, .bit true, .bit false, .bit true, .bit true, .bit false, .bit true]

def endDelimiter : List Symbol := [.vHigh, .vLow, .vHigh, .vLow, .vHigh, .vLow, .vHigh, .vLow]

/-- The symbols of a run of bytes. -/
def byteSymbols (bs : List Byte) : List Symbol := (bs.flatMap byteBits).map Symbol.bit

/-- The whole frame as symbols, in the order sent (Tables 7-1, 10-1). -/
def Frame.symbols (f : Frame) : List Symbol :=
  preamble ++ startDelimiter ++ byteSymbols f.content ++ endDelimiter

/-- How long a frame lasts in microseconds: two bit times each (R124: 40 + 4 × L). -/
def Frame.duration (f : Frame) : Nat := 40 + 4 * f.payload.length

/-- The bits of a run of symbols, unless one is a code violation (R138). -/
def symbolBits : List Symbol → Option (List Bool)
  | [] => some []
  | .bit b :: rest => (symbolBits rest).map (b :: ·)
  | .vHigh :: _ => none
  | .vLow :: _ => none

/-- The byte of eight bits, most significant first. -/
def byteOfBits (b7 b6 b5 b4 b3 b2 b1 b0 : Bool) : Byte :=
  BitVec.ofNat 8 (128 * b7.toNat + 64 * b6.toNat + 32 * b5.toNat + 16 * b4.toNat + 8 * b3.toNat + 4 * b2.toNat +
    2 * b1.toNat + b0.toNat)

/-- Whole bytes from bits; none if bits are left over. -/
def bitBytes : List Bool → Option (List Byte)
  | [] => some []
  | b7 :: b6 :: b5 :: b4 :: b3 :: b2 :: b1 :: b0 :: rest =>
    (bitBytes rest).map (byteOfBits b7 b6 b5 b4 b3 b2 b1 b0 :: ·)
  | _ => none

/-- The payload lengths a known kind allows; an unknown kind is not tested (R138, Table 10-3). -/
def lengthAllowed (kind : Byte) (n : Nat) : Bool :=
  if kind == kindBeacon then n == 8 || n == 16
  else if kind == kindTrigger then n == 8
  else if kind == kindEvent then n == 3 || n == 23 || n == 43 || n == 63
  else if kind == kindQuery then n == 1
  else if kind == kindFetch then n == 4
  else if kind == kindPeers then n == 0
  else if kind == kindRelease then n == 2
  else if kind == kindForce then n == 0
  else if kind == kindConfig then decide (1 ≤ n) && decide (n ≤ 64)
  else if kind == kindSetupEnd then n == 0
  else if kind == kindRestart then n == 0
  else if kind == kindState then
    n == 30 || n == 25 || n == 3 || n == 11 || n == 19 || n == 27 || n == 35 || n == 43 || n == 51
  else if kind == kindEntries then n == 2 || n == 26 || n == 50
  else if kind == kindPeerList then n == 30
  else if kind == kindResult then n == 2
  else true

/-- The conditions of R138 on the header and payload of a frame. -/
def Frame.broken (f : Frame) : Bool :=
  decide (64 < f.payload.length) || decide (30 < f.src.toNat) || f.dst == 0#8 ||
    !lengthAllowed f.kind f.payload.length

/-- The frame in the bytes found between the delimiters, if its length field fits them and its check is equal
(R138). -/
def frameOfContent (bs : List Byte) : Option Frame :=
  match bs with
  | kind :: src :: dst :: len :: rest =>
    let f : Frame := { kind, src, dst, payload := rest.take len.toNat }
    if rest.length == len.toNat + 2 && rest.drop len.toNat == natBE 2 (crc f.covered).toNat then some f else none
  | _ => none

/-- The valid frame in the symbols found between the delimiters; none where R138 calls the reception broken. -/
def frameOfSymbols (content : List Symbol) : Option Frame :=
  match symbolBits content with
  | none => none
  | some bits =>
    match bitBytes bits with
    | none => none
    | some bs =>
      match frameOfContent bs with
      | none => none
      | some f => if f.broken then none else some f

/-- The valid frame in what was heard up to the end delimiter (R138, R184): both delimiters have their patterns, no
violation symbol stands before the start delimiter, and what lies between the delimiters is a valid frame. That the
bits of the preamble have their pattern is no condition of R138 (DEDUCED, log 34). -/
def Heard.frame (h : Heard) : Option Frame :=
  if (symbolBits h.lead).isSome && h.start == startDelimiter && h.finish == endDelimiter then frameOfSymbols h.content
  else none

/-- What is heard of a frame that no symbol of has changed on the way (Table 10-1). -/
def Frame.heard (f : Frame) : Heard :=
  { lead := preamble, start := startDelimiter, content := byteSymbols f.content, finish := endDelimiter }

/-- The symbols heard, in the order sent. -/
def Heard.symbols (h : Heard) : List Symbol := h.lead ++ h.start ++ h.content ++ h.finish

/-- The request kinds and the reply kinds (R139). -/
def isRequestKind (k : Byte) : Bool :=
  k == kindQuery || k == kindFetch || k == kindPeers || k == kindRelease || k == kindForce || k == kindConfig ||
    k == kindSetupEnd || k == kindRestart

end Sys2Proof
end

