-- ==== Sys2Proof/Machine/Operands.lean ====
section
/-!
DEFINITION. The layouts of chapter 10: what the payloads and records carry, built and read.
-/

namespace Sys2Proof.Machine

/-- The byte at an offset, as a number; 0 past the end. -/
def byteAt (bs : List Byte) (i : Nat) : Nat := (bs.getD i 0#8).toNat

/-- `n` bytes from an offset. -/
def slice (bs : List Byte) (i n : Nat) : List Byte := (bs.drop i).take n

/-- The number in `n` bytes from an offset. -/
def fieldAt (bs : List Byte) (i n : Nat) : Nat := beNat (slice bs i n)

/-- A list of results, all present or none. -/
def allSome {α : Type} : List (Option α) → Option (List α)
  | [] => some []
  | none :: _ => none
  | some a :: rest => (allSome rest).map (a :: ·)

/-- A number in one byte. -/
def byteOf (n : Nat) : Byte := BitVec.ofNat 8 n

/-! ## Event record and ENTRIES entry (Tables 10-7, 10-8, 10-12; R186, R187) -/

/-- The sort of subject a kind has (Tables 5-1, 5-2). -/
inductive SubjectSort where
  | input
  | channel
  | reference
  | address
  | absent
  deriving DecidableEq, Repr

def Kind.subjectSort : Kind → SubjectSort
  | .inputRise => .input
  | .inputFall => .input
  | .inputStillActive => .input
  | .chatterStart => .input
  | .chatterEnd => .input
  | .analogHigh => .channel
  | .analogLow => .channel
  | .analogNormal => .channel
  | .analogSnapshot => .channel
  | .timeStep => .absent
  | .syncGained => .absent
  | .syncLost => .absent
  | .stationStart => .absent
  | .peersPresent => .absent
  | .historyLost => .absent
  | .sequenceRestart => .absent
  | .gap => .absent
  | .analogFault => .reference
  | .analogRecovered => .absent
  | .lineStuck => .absent
  | .lineRecovered => .absent
  | .addressClash => .absent
  | .addressClashEnd => .absent
  | .supplyWarning => .absent
  | .supplyRestored => .absent
  | .peerSeen => .address
  | .peerLost => .address
  | .triggerMark => .address
  | .triggerSeen => .address
  | .triggerNotSent => .address
  | .captureReleased => .address

/-- Subject codes of REFH and REFL (Table 10-10). -/
def subjectRefH : Nat := 16
def subjectRefL : Nat := 17

/-- The code is one Table 10-10 gives to this sort of subject. -/
def SubjectSort.lists (sort : SubjectSort) (c : Nat) : Bool :=
  match sort with
  | .input => decide (c ≤ 11)
  | .channel => decide (c ≤ 3)
  | .reference => c == subjectRefH || c == subjectRefL
  | .address => decide (1 ≤ c) && decide (c ≤ 30)
  | .absent => false

/-- The code is one Table 10-10 gives to some subject. -/
def subjectListed (c : Nat) : Bool := decide (c ≤ 30)

/-- A present subject is inside Table 10-10 (R188); for a code of another sort than the kind's the spec's words leave
it open (log 12). -/
def subjectAllowed (k : Kind) (c : Nat) : Bool :=
  if k.subjectSort.lists c then true else if subjectListed c then !Config.subjectByKind else false

/-- Capture content at record offset 16 (Table 10-12). -/
def CaptureContent.bytes (c : CaptureContent) : List Byte :=
  match c.detail with
  | .marked cause => [byteOf c.serial, byteOf cause.code, 0#8, 0#8]
  | .seen adopted => [byteOf c.serial, byteOf adopted.toNat, 0#8, 0#8]
  | .notSent => [byteOf c.serial, 0#8, 0#8, 0#8]
  | .released unrecorded reason => [byteOf c.serial, byteOf reason.code] ++ natBE 2 unrecorded

/-- The presence-and-origin byte (Table 10-7, offset 6). -/
def presenceByte (d : Draft) : Byte :=
  byteOf (128 * d.originSeq.isSome.toNat + 64 * d.value.isSome.toNat + 32 * d.subject.isSome.toNat + d.origin % 32)

/-- The 20 bytes of an event record (Table 10-7). -/
def recordBytes (d : Draft) : List Byte :=
  natBE 6 d.time ++ [presenceByte d, byteOf d.kind.code, byteOf (d.subject.getD 0), byteOf d.sync.code] ++
    natBE 6 (d.value.getD 0) ++
    (match d.capture with
     | some c => c.bytes
     | none => natBE 4 (d.originSeq.getD 0))

/-- The 24 bytes of an ENTRIES entry (Table 10-8). -/
def entryBytes (e : Entry) : List Byte := natBE 4 e.seq ++ recordBytes e.body

/-- The presence bits of a record. -/
def hasOriginSeq (r : List Byte) : Bool := (r.getD 6 0#8).getLsbD 7
def hasValue (r : List Byte) : Bool := (r.getD 6 0#8).getLsbD 6
def hasSubject (r : List Byte) : Bool := (r.getD 6 0#8).getLsbD 5

/-- The record of a received EVENT frame, with origin from the frame's source, unless R188 finds a field of it out of
range. For class CAPTURE the bytes at offset 16 are capture content and no absent field (DEDUCED, log 13). The sync code
is the whole byte at offset 9, so a bit of it that Table 10-7 marks zero refuses the record (DEDUCED, log 36). -/
def parseRecord (origin : Nat) (r : List Byte) : Option Draft :=
  match Kind.ofCode (byteAt r 7), SyncState.ofCode (byteAt r 9) with
  | some kind, some sync =>
    let subject := byteAt r 8
    let value := fieldAt r 10 6
    let originSeq := fieldAt r 16 4
    let subjectOk := if hasSubject r then subjectAllowed kind subject else subject == 0
    let valueOk := hasValue r || value == 0
    let originSeqOk := if hasOriginSeq r then originSeq != 0 else kind.class == 7 || originSeq == 0
    if subjectOk && valueOk && originSeqOk then
      some { time := fieldAt r 0 6, origin, originSeq := if hasOriginSeq r then some originSeq else none, kind,
             subject := if hasSubject r then some subject else none,
             value := if hasValue r then some value else none, capture := none, sync }
    else none
  | _, _ => none

/-! ## Station frames (Tables 10-4 to 10-6) and their range checks (R188) -/

/-- What a beacon carries (Table 6-1). -/
structure BeaconFields where
  sender : Nat
  sync : SyncState
  capture : CaptureCode
  tag : Option TimedTag
  deriving DecidableEq, Repr

/-- What an EVENT frame carries (Table 10-6). -/
structure EventFields where
  number : Nat
  drops : Nat
  records : List Draft
  deriving DecidableEq, Repr

/-- Tag and trigger time: origin, serial, six bytes of time. -/
def timedTagBytes (t : TimedTag) : List Byte :=
  [byteOf t.tag.origin, byteOf t.tag.serial] ++ natBE 6 t.time

/-- Tag and trigger time from eight bytes, unless the tag is out of range (R188). -/
def parseTimedTag (bs : List Byte) : Option TimedTag :=
  let origin := byteAt bs 0
  let serial := byteAt bs 1
  if decide (1 ≤ origin) && decide (origin ≤ 30) && serial != 0 then
    some { tag := { origin, serial }, time := fieldAt bs 2 6 }
  else none

def CaptureCode.holdsTag : CaptureCode → Bool
  | .off => false
  | .armed => false
  | .post => true
  | .frozen => true

/-- A beacon's payload; the sender time is inserted at the frame start instant (R131). -/
def beaconPayload (b : BeaconFields) : List Byte :=
  natBE 6 b.sender ++ [byteOf b.sync.code, byteOf b.capture.code] ++
    (match b.tag with
     | some t => timedTagBytes t
     | none => [])

def parseBeacon (p : List Byte) : Option BeaconFields :=
  match SyncState.ofCode (byteAt p 6), CaptureCode.ofCode (byteAt p 7) with
  | some sync, some capture =>
    if capture.holdsTag then
      if p.length == 16 then
        (parseTimedTag (slice p 8 8)).map fun t => { sender := fieldAt p 0 6, sync, capture, tag := some t }
      else none
    else if p.length == 8 then some { sender := fieldAt p 0 6, sync, capture, tag := none }
    else none
  | _, _ => none

def triggerPayload (t : TimedTag) : List Byte := timedTagBytes t

def parseTrigger (p : List Byte) : Option TimedTag := parseTimedTag p

def eventPayload (e : EventFields) : List Byte :=
  [byteOf e.number, byteOf e.drops, byteOf e.records.length] ++ e.records.flatMap recordBytes

/-- The frame is taken whole or not at all (R188). -/
def parseEvent (origin : Nat) (p : List Byte) : Option EventFields :=
  let number := byteAt p 0
  let count := byteAt p 2
  if number != 0 && decide (count ≤ batchRecords) && p.length == 3 + 20 * count then
    (allSome ((List.range count).map fun i => parseRecord origin (slice p (3 + 20 * i) 20))).map
      fun records => { number, drops := byteAt p 1, records }
  else none

/-! ## Packed values (Table 10-11) -/

def packStationStart (cause : ResetCause) (levels : BitVec 12) (profile : Bool) (marks : Marks) : Nat :=
  cause.code * 256 ^ 5 + levels.toNat * 256 ^ 3 + profile.toNat * 256 ^ 2 +
    (marks.inputsLow.toNat + 2 * marks.inputsHigh.toNat + 4 * marks.analog.toNat + 8 * marks.station.toNat) * 256

/-- Bit a = address a present; `present` lists addresses 1, 2, … in order. -/
def packPeers (present : List Bool) : Nat :=
  (present.foldl (fun (acc : Nat × Nat) b => (acc.1 + b.toNat * acc.2, acc.2 * 2)) (0, 2)).1

/-! ## Configuration sections (Tables 10-17 to 10-19) and their validation (R175 to R178) -/

/-- A yes-or-no byte other than 0 or 1 is out of range (R175). -/
def parseBool (n : Nat) : Option Bool :=
  match n with
  | 0 => some false
  | 1 => some true
  | _ => none

def Sensitivity.ofCode : Nat → Option Sensitivity
  | 0 => some .off
  | 1 => some .rise
  | 2 => some .fall
  | 3 => some .both
  | _ => none

/-- What R176 allows of an input setting. -/
def InputSetting.valid (i : InputSetting) : Bool :=
  decide (i.qualify ≤ 255) &&
  (i.repeatEvery == 0 ||
    (decide (i.repeatEvery ≤ 255) && (i.sensitivity == .rise || i.sensitivity == .fall))) &&
  (i.chatterLimit == 0 || (decide (4 ≤ i.chatterLimit) && decide (i.chatterLimit ≤ 60))) &&
  (decide (1 ≤ i.chatterRest) && decide (i.chatterRest ≤ 15))

/-- Five bytes of an input setting (Table 10-17). -/
def parseInput (b : List Byte) : Option InputSetting :=
  let flags := byteAt b 0
  if flags % 128 < 4 then
    match Sensitivity.ofCode (flags % 128) with
    | some sensitivity =>
      let i : InputSetting :=
        { sensitivity, qualify := byteAt b 1, repeatEvery := byteAt b 2, chatterLimit := byteAt b 3,
          chatterRest := byteAt b 4, trigger := decide (128 ≤ flags) }
      if i.valid then some i else none
    | none => none
  else none

/-- Six input settings in input order. -/
def parseInputs (body : List Byte) : Option (List InputSetting) :=
  allSome ((List.range 6).map fun i => parseInput (slice body (5 * i) 5))

/-- What R177 allows of a channel setting. -/
def ChannelSetting.valid (c : ChannelSetting) : Bool :=
  decide (c.high ≤ 4095) && decide (c.low < c.high) && decide (c.hysteresis ≤ 255) &&
    decide (c.hysteresis < c.high - c.low) && decide (1 ≤ c.qualifyScans) && decide (c.qualifyScans ≤ 16)

/-- Seven bytes of a channel setting (Table 10-18). -/
def parseChannel (b : List Byte) : Option ChannelSetting :=
  let flags := b.getD 0 0#8
  let c : ChannelSetting :=
    { enable := flags.getLsbD 0, high := fieldAt b 1 2, low := fieldAt b 3 2, hysteresis := byteAt b 5,
      qualifyScans := byteAt b 6, triggerHigh := flags.getLsbD 1, triggerLow := flags.getLsbD 2,
      snapshot := flags.getLsbD 3 }
  if decide (flags.toNat < 16) && c.valid then some c else none

/-- Four channel settings, the snapshot interval and the dither setting (R177). -/
def parseAnalog (body : List Byte) : Option AnalogSection :=
  match allSome ((List.range 4).map fun i => parseChannel (slice body (7 * i) 7)), parseBool (byteAt body 30) with
  | some channels, some dither =>
    let interval := fieldAt body 28 2
    if interval == 0 || !dither || decide (16 ≤ interval) then some { channels, interval, dither } else none
  | _, _ => none

/-- What R178 allows of a STATION section. -/
def StationSection.valid (x : StationSection) : Bool :=
  decide (16 ≤ x.postCount) && decide (x.postCount ≤ 447) && decide (1 ≤ x.postTime) && decide (x.postTime ≤ 6000) &&
    decide (x.holdLimit ≤ 255) && !x.recordMask.getLsbD 7 && !x.announceMask.getLsbD 7 && !x.heardMask.getLsbD 7 &&
    decide (1 ≤ x.period) && decide (x.period ≤ 100) && decide (2 ≤ x.tolerance) && decide (x.tolerance ≤ 200)

/-- Eleven bytes of a STATION section (Table 10-19). -/
def parseStation (b : List Byte) : Option StationSection :=
  match parseBool (byteAt b 0) with
  | some capture =>
    let x : StationSection :=
      { capture, postCount := fieldAt b 1 2, postTime := fieldAt b 3 2, holdLimit := byteAt b 5,
        recordMask := b.getD 6 0#8, announceMask := b.getD 7 0#8, heardMask := b.getD 8 0#8, period := byteAt b 9,
        tolerance := byteAt b 10 }
    if x.valid then some x else none
  | none => none

/-- A section that has passed the tests of R175, or the code of the test it failed. -/
inductive SectionResult where
  | unknownSection
  | outOfRange
  | inputsLow (x : List InputSetting)
  | inputsHigh (x : List InputSetting)
  | analog (x : AnalogSection)
  | station (x : StationSection)
  deriving DecidableEq, Repr

/-- The tests of R175 in their order: section number, length, fields. -/
def parseSection (p : List Byte) : SectionResult :=
  let body := p.drop 1
  match byteAt p 0 with
  | 1 =>
    if p.length == 31 then
      match parseInputs body with
      | some x => .inputsLow x
      | none => .outOfRange
    else .outOfRange
  | 2 =>
    if p.length == 31 then
      match parseInputs body with
      | some x => .inputsHigh x
      | none => .outOfRange
    else .outOfRange
  | 3 =>
    if p.length == 32 then
      match parseAnalog body with
      | some x => .analog x
      | none => .outOfRange
    else .outOfRange
  | 4 =>
    if p.length == 12 then
      match parseStation body with
      | some x => .station x
      | none => .outOfRange
    else .outOfRange
  | _ => .unknownSection

end Sys2Proof.Machine
end

