-- ==== Sys2Proof/Machine/Ring.lean ====
section
/-!
DEFINITION. The History Ring's operations on its own state: storing, emptying, reading (R3, R5, R7, R9 to R12).
-/

namespace Sys2Proof.Machine

/-- A plain write: next seq, next position, held count, check (R5). -/
def Ring.store (r : Ring) (d : Draft) : Ring :=
  { positions := r.positions.set ((r.newest + 1) % ringSize) (some { seq := r.nextSeq, body := d })
    newest := (r.newest + 1) % ringSize
    held := min (r.held + 1) ringSize
    nextSeq := r.nextSeq + 1
    check := .matching }

/-- Emptying; positions keep what they last held (R3, R7). -/
def Ring.emptied (r : Ring) : Ring := { r with newest := 511, held := 0, nextSeq := 1, check := .matching }

/-- The seq of the oldest held entry, 0 while the ring is empty (R3, R9). -/
def Ring.oldestSeq (r : Ring) : Nat := if r.held = 0 then 0 else r.nextSeq - r.held

/-- The seq of the newest held entry, 0 while the ring is empty (R3, R9). -/
def Ring.newestSeq (r : Ring) : Nat := if r.held = 0 then 0 else r.nextSeq - 1

/-- The position of a held seq: as far before the newest position as the seq is before the newest seq (R3). -/
def Ring.positionOf (r : Ring) (seq : Nat) : Nat := (r.newest + ringSize - (r.nextSeq - 1 - seq)) % ringSize

/-- The entry held under a seq. -/
def Ring.entry (r : Ring) (seq : Nat) : Option Entry := r.positions.getD (r.positionOf seq) none

/-- A read claim (R10 to R12). -/
def Ring.read (r : Ring) (start count : Nat) : ReadOutcome × List Entry :=
  if r.held = 0 ∨ r.newestSeq < start then (.noneYet, [])
  else
    let first := max start r.oldestSeq
    (if start < r.oldestSeq then .startMoved else .inPlace,
     (r.entry first).toList ++
       if count = 2 ∧ first < r.newestSeq then (r.entry (first + 1)).toList else [])

end Sys2Proof.Machine
end

