-- ==== Sys2Proof/Machine/Ops.lean ====
section
/-!
DEFINITION. The operations the commands share: the passing of time, a write to the ring, the handling of a local
event, the capture record's operations, the end of a frame item, a reset, and entry to RUNNING.
-/

namespace Sys2Proof.Machine

namespace State

/-! ## Views -/

/-- The own address (R167). -/
def address (s : State) : Nat := s.sc.straps.address.toNat

/-- The own address as a header byte. -/
def addressByte (s : State) : Byte := byteOf s.address

/-- The STATION section in force. -/
def station (s : State) : StationSection := s.sc.config.station

/-- B in microseconds (R178). -/
def period (s : State) : Nat := s.station.period * tenMs

/-- The receiver is on in SETUP and RUNNING (R145). -/
def receiverOn (s : State) : Bool := s.sc.op == .setup || s.sc.op == .running

/-! ## Time (R102, R103) -/

/-- `n` microseconds pass: the elapsed timer runs, the time count runs up to its top. Neither runs while a reset is
held. -/
def advance (n : Nat) (s : State) : State :=
  if s.sc.resetHeld then s
  else { s with tu := { s.tu with elapsed := s.tu.elapsed + n, timeCount := min (s.tu.timeCount + n) timeTop } }

/-- Time passes up to a moment of the elapsed timer, if that has not come (log 3). -/
def advanceTo (moment : Nat) (s : State) : State := s.advance (moment - s.tu.elapsed)

/-! ## The capture record (R15, R20) -/

/-- A change of the record, which ends with the update of the retention check (R15). -/
def setRecord (r : CaptureRecord) (s : State) : State :=
  { s with cc := { s.cc with record := r }, hr := { s.hr with check := .matching } }

/-- The cleared record with the state the capture setting in force gives (R20, R42, R44). -/
def clearedRecord (s : State) : CaptureRecord :=
  { CaptureRecord.cleared with st := if s.station.capture then .armed else .off }

/-- The record is cleared and its durations end. -/
def clearRecord (s : State) : State :=
  { s.setRecord s.clearedRecord with
    cc := { (s.setRecord s.clearedRecord).cc with postClock := none, frozenClock := none } }

/-- A refusal for FROZEN: unrecorded rises by 1, up to 65535 (R39). -/
def countUnrecorded (s : State) : State :=
  s.setRecord { s.cc.record with unrecorded := satAdd top16 s.cc.record.unrecorded 1 }

/-- Stop a duration at its value now. -/
def stopClock (s : State) : Option Stopwatch → Option Stopwatch
  | none => none
  | some (.running since) => some (.stopped (s.tu.elapsed - since))
  | some (.stopped v) => some (.stopped v)

/-- POST becomes FROZEN: post elapsed stops, frozen elapsed starts from 0 (R37, R38). -/
def freeze (reason : FreezeReason) (s : State) : State :=
  match s.cc.record.st with
  | .off => s
  | .armed => s
  | .post cur =>
    let s' := s.setRecord { s.cc.record with st := .frozen cur reason }
    { s' with cc := { s'.cc with postClock := s.stopClock s.cc.postClock, frozenClock := some (.running s.tu.elapsed) } }
  | .frozen _ _ => s

/-- A write was taken: in POST, post written rises, and the capture freezes when it equals the post count (R37). -/
def countPost (s : State) : State :=
  if s.cc.record.st.isPost then
    let s' := s.setRecord { s.cc.record with postWritten := s.cc.record.postWritten + 1 }
    if s'.cc.record.postWritten = s.station.postCount then s'.freeze .countReached else s'
  else s

/-! ## Frame items (R127, R136) -/

end State

/-- The attempt count of a source's item (R126). -/
def Attempts.get (a : Attempts) : Source → Nat
  | .trigger => a.trigger
  | .reply => a.reply
  | .beacon => a.beacon
  | .event => a.event

def Attempts.put (a : Attempts) (src : Source) (n : Nat) : Attempts :=
  match src with
  | .trigger => { a with trigger := n }
  | .reply => { a with reply := n }
  | .beacon => { a with beacon := n }
  | .event => { a with event := n }

/-- What the Line Controller does when a source ends its item: a staging of it is given up, a transmission of it goes
on unreported, its attempt count is discarded (R136). -/
def LineController.endItem (lc : LineController) (src : Source) : LineController :=
  { lc with
    line :=
      match lc.line with
      | .quiet => .quiet
      | .receiving stamp => .receiving stamp
      | .staged since out => if out.source = src then .quiet else .staged since out
      | .transmitting since out none =>
        if out.source = src then .transmitting since out (some (lc.attempts.get src)) else .transmitting since out none
      | .transmitting since out (some k) => .transmitting since out (some k)
      | .backoff => .backoff
      | .stuck => .stuck
    attempts := lc.attempts.put src 0 }

namespace State

/-- The pending TRIGGER frame, if any, is withdrawn (R28, R35, R42, R44). -/
def withdrawTrigger (s : State) : State :=
  match s.cc.pendingTrigger with
  | none => s
  | some _ => { s with cc := { s.cc with pendingTrigger := none }, lc := s.lc.endItem .trigger }

/-- The reply in the slot, if any, leaves it unsent (R150, R151). -/
def endReply (s : State) : State :=
  match s.rh.slot with
  | none => s
  | some _ => { s with rh := { s.rh with slot := none }, lc := s.lc.endItem .reply }

/-! ## Writing to the ring (R4 to R8) -/

/-- The outcome of a write the ring reports to the requester (R4). -/
inductive WriteResult where
  | taken (seq : Nat)
  | frozen
  | notRunning
  deriving DecidableEq, Repr

/-- A draft made at this station, now (R2, R27). -/
def ownDraft (time : Nat) (kind : Kind) (subject value : Option Nat) (capture : Option CaptureContent) (s : State) :
    Draft :=
  { time, origin := s.address, originSeq := none, kind, subject, value, capture, sync := s.tu.sync }

/-- A sequence restart empties the ring while a capture is in POST or FROZEN: the capture is lost (R44). -/
def loseCapture (s : State) : State :=
  if s.cc.record.st.held then s.clearRecord.withdrawTrigger else s

/-- A sequence restart: emptying, loss of a capture, SEQUENCE_RESTART with seq 1, the pending entry with seq 2 (R8). -/
def sequenceRestart (d : Draft) (s : State) : State :=
  let s' := { s with hr := s.hr.emptied }.loseCapture
  { s' with hr := (s'.hr.store (s'.ownDraft s'.tu.timeCount .sequenceRestart none none none)).store d }

/-- A write that reaches the ring: refused outside RUNNING and in FROZEN (R4; the refusal for FROZEN counts in
unrecorded, R39), a sequence restart when the sequence numbers are used up (R8), otherwise a plain write that counts in
POST (R5, R37). -/
def write (d : Draft) (s : State) : State × WriteResult :=
  if s.sc.op ≠ .running then (s, .notRunning)
  else if s.cc.record.st.isFrozen then (s.countUnrecorded, .frozen)
  else if s.hr.nextSeq = seqLimit then (s.sequenceRestart d, .taken 2)
  else ({ s with hr := s.hr.store d }.countPost, .taken s.hr.nextSeq)

/-! ## Originating, joining, comparing, releasing (chapter 2) -/

/-- A CAPTURE entry: tag, trigger time and further content (R27, Table 2-4). -/
def captureDraft (kind : Kind) (t : TimedTag) (detail : CaptureDetail) (s : State) : Draft :=
  s.ownDraft s.tu.timeCount kind (some t.tag.origin) (some t.time) (some { serial := t.tag.serial, detail })

/-- The mark is written and the record takes POST with fresh counts (R26 steps 3 and 4, R31). -/
def enterPost (t : TimedTag) (cause : Cause) (s : State) : State :=
  match s.write (s.captureDraft .triggerMark t (.marked cause)) with
  | (s', .taken seq) =>
    let s'' := s'.setRecord
      { st := .post { tag := t.tag, triggerTime := t.time, cause, markSeq := seq }, postWritten := 0, retag := 0,
        seen := [], overflow := false, unrecorded := 0 }
    { s'' with cc := { s''.cc with postClock := some (.running s.tu.elapsed), frozenClock := none } }
  | (s', .frozen) => s'
  | (s', .notRunning) => s'

/-- Origination from ARMED: serial, tag, mark, POST, and a TRIGGER frame pending (R26). -/
def originate (cause : Cause) (time : Nat) (s : State) : State :=
  let serial := cyclicNext s.cc.serial
  let t : TimedTag := { tag := { origin := s.address, serial }, time }
  let s' := { s with cc := { s.cc with serial } }.enterPost t cause
  { s' with cc := { s'.cc with pendingTrigger := some t },
            lc := { s'.lc with attempts := s'.lc.attempts.put .trigger 0 } }

/-- A local trigger request: it originates in ARMED and is ignored in the other states; a request without a time of
its own brings the time count at acceptance (R25, Table 2-3). -/
def requestTrigger (cause : Cause) (time : Option Nat) (s : State) : State :=
  match s.cc.record.st with
  | .off => s
  | .armed => s.originate cause (time.getD s.tu.timeCount)
  | .post _ => s
  | .frozen _ _ => s

end State

/-- Tag `a` is earlier than tag `b` (R22). -/
def TimedTag.earlier (a b : TimedTag) : Bool :=
  decide (a.time < b.time) || (a.time == b.time && decide (a.tag.origin < b.tag.origin))

/-- The current tag with its trigger time. -/
def Current.timedTag (c : Current) : TimedTag := { tag := c.tag, time := c.triggerTime }

/-- The seen list and overflow after an addition: a full list stores nothing (R34). -/
def CaptureRecord.see (r : CaptureRecord) (t : TimedTag) : CaptureRecord :=
  if r.seen.length < seenSize then { r with seen := r.seen ++ [t] } else { r with overflow := true }

/-- The record after an adoption of `z` by a record whose current fields are `cur` (R33 step 2). -/
def CaptureRecord.adopt (r : CaptureRecord) (cur : Current) (z : TimedTag) : CaptureRecord :=
  { r.see cur.timedTag with
    st := (match r.st with
      | .off => .off
      | .armed => .armed
      | .post c => .post { c with tag := z.tag, triggerTime := z.time }
      | .frozen c reason => .frozen { c with tag := z.tag, triggerTime := z.time } reason)
    retag := satAdd top8 r.retag 1 }

namespace State

/-- In POST, and with room in the seen list, the comparison writes TRIGGER_SEEN (R33, R34). -/
def writeSeen (inPost room : Bool) (z : TimedTag) (adopted : Bool) (s : State) : State :=
  if inPost && room then (s.write (s.captureDraft .triggerSeen z (.seen adopted))).1 else s

/-- A comparison of tag `z` with a record in POST or FROZEN (R33 to R35). -/
def compare (z : TimedTag) (s : State) : State :=
  let r := s.cc.record
  match r.st.current with
  | none => s
  | some cur =>
    let room := decide (r.seen.length < seenSize)
    if cur.tag == z.tag || r.seen.any (fun t => t.tag == z.tag) then s
    else if z.earlier cur.timedTag then
      ((s.setRecord (r.adopt cur z)).withdrawTrigger).writeSeen r.st.isPost room z true
    else (s.setRecord (r.see z)).writeSeen r.st.isPost room z false

/-- A TRIGGER frame from a peer, in RUNNING (R30). -/
def takeTrigger (z : TimedTag) (s : State) : State :=
  if s.sc.op = .running then
    match s.cc.record.st with
    | .off => s
    | .armed => s.enterPost z .peerTrigger
    | .post _ => s.compare z
    | .frozen _ _ => s.compare z
  else s

/-- The capture fields of a beacon from a peer, in RUNNING (R30, R32). -/
def takeGossip (code : CaptureCode) (tag : Option TimedTag) (s : State) : State :=
  if s.sc.op = .running then
    match tag with
    | none => s
    | some z =>
      match s.cc.record.st with
      | .off => s
      | .armed =>
        match code with
        | .off => s
        | .armed => s
        | .post => s.enterPost z .peerBeacon
        | .frozen => s
      | .post _ => s.compare z
      | .frozen _ _ => s.compare z
  else s

/-- Release of a FROZEN capture; in SETUP the entry is refused by the ring's guard (R42). -/
def release (reason : ReleaseReason) (s : State) : State :=
  match s.cc.record.st with
  | .off => s
  | .armed => s
  | .post _ => s
  | .frozen cur _ =>
    let s' := s.withdrawTrigger.clearRecord
    (s'.write (s'.captureDraft .captureReleased cur.timedTag (.released s.cc.record.unrecorded reason))).1

/-! ## The Event Router (chapter 5) -/

end State

/-- An event as its source hands it on (R62, R80, R172). `opening`: one of the three entries of entry to RUNNING;
`trigger`: the trigger-enabled indication, with its cause and, for an input or analog cause, the event's time. -/
structure LocalEvent where
  time : Nat
  kind : Kind
  subject : Option Nat := none
  value : Option Nat := none
  opening : Bool := false
  trigger : Option (Cause × Option Nat) := none
  deriving DecidableEq, Repr

namespace State

/-- The write step: the seq assigned, if the event was handed to the ring and taken (R86). -/
def writeStep (e : LocalEvent) (s : State) : State × Option Nat :=
  if e.opening || s.station.recordMask.getLsbD e.kind.class then
    match s.write (s.ownDraft e.time e.kind e.subject e.value none) with
    | (s', .taken seq) => (s', some seq)
    | (s', .frozen) => (s', none)
    | (s', .notRunning) => (s', none)
  else (s, none)

/-- The announce step: append, or count a drop when the queue holds 16 entries (R87). -/
def announceStep (e : LocalEvent) (ownSeq : Option Nat) (s : State) : State :=
  if s.station.announceMask.getLsbD e.kind.class then
    if s.er.queue.length < queueSize then
      { s with er := { s.er with
          queue := s.er.queue ++
            [{ time := e.time, kind := e.kind, subject := e.subject, value := e.value, sync := s.tu.sync,
               ownSeq }] } }
    else { s with er := { s.er with drops := satAdd top8 s.er.drops 1 } }
  else s

/-- The trigger-request step (R88). -/
def triggerStep (e : LocalEvent) (s : State) : State :=
  match e.trigger with
  | none => s
  | some (cause, time) => s.requestTrigger cause time

/-- The handling of one local event whole: write, announce, trigger request (R85). -/
def handleEvent (e : LocalEvent) (s : State) : State :=
  let w := s.writeStep e
  (w.1.announceStep e w.2).triggerStep e

/-- A reset strikes in RUNNING: it is no longer RUNNING, so nothing more is written, joined or handed on, and no loss of
history is left to report (R101, R166, R172). -/
def strike (s : State) : State :=
  { s with sc := { s.sc with op := .starting, historyLost := false }, cut := none }

/-- A point of a step at which a reset can strike, the operations before it complete and those after it not begun (R15,
R82, R101; log 7). -/
def passPoint (s : State) : State :=
  match s.cut with
  | none => s
  | some 0 => s.strike
  | some (n + 1) => { s with cut := some n }

/-- A local event, taken in RUNNING only (R85). Where a reset strikes in its handling, its write is made and its announce
and trigger-request steps are not (R101); where one strikes at its end, nothing after it is handed on (R82). -/
def emit (e : LocalEvent) (s : State) : State :=
  if s.sc.op = .running then
    match s.cut with
    | none => s.handleEvent e
    | some 0 => (s.writeStep e).1.strike
    | some 1 => (State.handleEvent e { s with cut := none }).strike
    | some (n + 2) => State.handleEvent e { s with cut := some n }
  else s

/-! ## Reset (R165, R166 and each chapter's reset rule) -/

/-- Every block stops and takes its state after a reset; the ring, the record and the serial stay as stored. The running
durations of a stored capture are not retained: they hold free values (R14, R20; log 19). -/
def resetBlocks (s : State) : State :=
  { s with
    cc := { s.cc with
      pendingTrigger := none
      postClock := if s.cc.record.st.held then some (.stopped (Config.postElapsed s.drawn)) else none
      frozenClock := if s.cc.record.st.isFrozen then some (.stopped (Config.frozenElapsed s.drawn)) else none }
    iq := List.replicate 12 InputRecord.cleared
    an := Scanner.initial s.an.dither
    er := Router.initial
    tu := TimeUnit.initial
    pm := PeerMonitor.initial
    lc := LineController.initial s.lc.generator
    rh := RequestHandler.initial
    sc := { s.sc with
      op := .starting, resetHeld := true, captHeld := true, config := profileOf s.sc.straps.profile,
      configured := ⟨false, false, false, false⟩, setupSince := none, conditions := Conditions.empty,
      supply := .normal }
    drawn := s.drawn + 1
    cut := none }

/-- The ring is emptied, the record cleared to ARMED, the serial 0 (R16, R18, R46). -/
def discardHistory (s : State) : State :=
  { s with hr := s.hr.emptied,
           cc := { s.cc with record := CaptureRecord.cleared, serial := 0, postClock := none, frozenClock := none } }

/-- A power-on reset begins (R18, R165). The emptying of R167 step 3 is made here: what a retaining reset finds that strikes
the STARTING of a power-on reset before that step is not stated, and the model has it find the empty ring with a
matching check (DESIGN CHOICE, log 33). -/
def beginPowerOn (s : State) : State :=
  let s' := s.resetBlocks.discardHistory
  { s' with sc := { s'.sc with cause := .powerOn, belowPowerOn := true, historyLost := false } }

/-- A retaining reset begins. Once the supply has passed below the power-on level in a held reset, the cause stays
POWER_ON (R165). Striking an operation of R15 leaves the check unequal (R16, R19). A retaining reset that strikes in
STARTING keeps the history lost indication (R17, R172). -/
def beginRetaining (cause : ResetCause) (inside : Bool) (s : State) : State :=
  let passed := s.sc.resetHeld && s.sc.belowPowerOn
  let s' := s.resetBlocks
  { s' with
    hr := if inside then { s'.hr with check := .mismatched } else s'.hr
    sc := { s'.sc with
      cause := if passed then .powerOn else cause, belowPowerOn := passed,
      historyLost := s.sc.historyLost && s.sc.op == .starting } }

/-! ## Entry to RUNNING (R171, R172) -/

/-- The Capture Controller at entry to RUNNING: the setting decides between ARMED and OFF; a FROZEN capture stays and
its frozen elapsed starts from 0 (R23, R47). -/
def captureAtRunning (s : State) : State :=
  match s.cc.record.st with
  | .off => s.setRecord { s.cc.record with st := if s.station.capture then .armed else .off }
  | .armed => s.setRecord { s.cc.record with st := if s.station.capture then .armed else .off }
  | .post _ => s
  | .frozen _ _ => { s with cc := { s.cc with frozenClock := some (.running s.tu.elapsed) } }

/-- The setting of an input; one that no section lists is OFF. -/
def inputSetting (n : Nat) (s : State) : InputSetting :=
  (s.sc.config.inputsLow ++ s.sc.config.inputsHigh).getD n
    { sensitivity := .off, qualify := 0, repeatEvery := 0, chatterLimit := 0, chatterRest := 1, trigger := false }

/-- The input records as observation begins: the sampled level becomes the qualified level of each observed input
(R50); the record of an input with sensitivity OFF stays empty (R49). -/
def observedInputs (levels : BitVec 12) (s : State) : List InputRecord :=
  (List.range 12).map fun n =>
    if (s.inputSetting n).sensitivity = .off then InputRecord.cleared
    else { InputRecord.cleared with level := some (levels.getLsbD n) }

/-- Entry to RUNNING: the capture state, HISTORY_LOST if due, STATION_START, PEERS_PRESENT, then the beacon schedule,
the scans and input observation start at this moment (R171, R172). The change of the capture state is an operation of R15
of its own; that a reset can strike between it and the first entry's write is the model's choice (DESIGN CHOICE,
log 7). -/
def enterRunning (levels : BitVec 12) (s : State) : State :=
  let now := s.tu.timeCount
  let s1 := { s with sc := { s.sc with op := .running, setupSince := none } }.captureAtRunning.passPoint
  let s2 :=
    if s1.sc.historyLost then
      s1.emit { time := now, kind := .historyLost, value := some s.sc.cause.code, opening := true }
    else s1
  let s3 := { s2 with sc := { s2.sc with historyLost := false } }
  let s4 := s3.emit
    { time := now, kind := .stationStart, opening := true,
      value := some (packStationStart s.sc.cause levels s.sc.straps.profile s.sc.configured) }
  let s5 := s4.emit
    { time := now, kind := .peersPresent, value := some (packPeers (s.pm.peers.map (·.present))), opening := true }
  { s5 with
    iq := s.observedInputs levels
    an := { s5.an with nextScan := some s.tu.elapsed }
    tu := { s5.tu with schedule := some { origin := s.tu.elapsed, taken := 0 } } }

end State

end Sys2Proof.Machine
end

