-- ==== Sys2Proof/Machine/Startup.lean ====
section
/-!
DEFINITION. Family: resets, STARTING, the setup window and the supply monitor (chapter 9; R14 to R18, R45, R46).
-/

namespace Sys2Proof.Machine

/-- The outcome of a command that completes. -/
abbrev Result := Host.Outcome State Fault Refusal

namespace State

/-- Steps 1 and 2 of STARTING: straps sampled, profile loaded, generators seeded, START_FAULT (R167). -/
def readStraps (straps : Straps) (s : State) : State :=
  let address := straps.address.toNat
  let s' := { s with
    sc := { s.sc with
      straps, config := profileOf straps.profile, configured := ⟨false, false, false, false⟩ }
    an := { s.an with dither := ditherSeed + address }
    lc := { s.lc with generator := backoffSeed + address } }
  if address = 0 ∨ address = 31 then s'.setCondition .startFault true else s'

/-- A retained POST capture becomes FROZEN, cut short; post written keeps its value (R45). Frozen elapsed does not run
before entry to RUNNING, and what it holds until then is free (R40, R47; log 19). -/
def cutShort (s : State) : State :=
  match s.cc.record.st with
  | .off => s
  | .armed => s
  | .post cur =>
    let s' := s.setRecord { s.cc.record with st := .frozen cur .cutShort }
    { s' with cc := { s'.cc with frozenClock := some (.stopped (Config.frozenElapsed s.drawn)) }, drawn := s.drawn + 1 }
  | .frozen _ _ => s

/-- Steps 3 and 4 of STARTING: the retention restore, or the emptying of a power-on reset; the history lost
indication; CAPT follows the record again (R16, R18, R24, R45, R46, R167). -/
def restore (s : State) : State :=
  let s' :=
    if s.sc.cause = .powerOn then s.discardHistory
    else
      match s.hr.check with
      | .matching => s.cutShort
      | .mismatched => { s.discardHistory with sc := { s.sc with historyLost := true } }
  { s' with sc := { s'.sc with captHeld := false } }

/-- The receiver comes on: the line is taken as having been active until now, and the activity time starts (R143,
R145). -/
def startReceiver (s : State) : State := { s with lc := { s.lc with activeSince := some s.tu.elapsed } }

/-- Step 5 of STARTING: START-FAULT, SETUP or RUNNING (R167, R169). -/
def leaveStarting (levels : BitVec 12) (s : State) : State :=
  if s.address = 0 ∨ s.address = 31 then { s with sc := { s.sc with op := .startFault } }
  else if s.sc.straps.setup then
    { s.startReceiver with sc := { s.sc with op := .setup, setupSince := some s.tu.elapsed } }
  else s.startReceiver.enterRunning levels

/-- A supply below the warning threshold while NORMAL: WARNING, the condition and, in RUNNING, the event (R181). -/
def fallBelowWarning (s : State) : State :=
  match s.sc.supply with
  | .warning _ => s
  | .normal =>
    let s' := { s with sc := { s.sc with supply := .warning none } }.setCondition .supplyWarning true
    s'.emit { time := s.tu.timeCount, kind := .supplyWarning, trigger := some (.supplyWarning, none) }

/-- A rise above the hysteresis: the restore timer of WARNING starts from 0 (R182). -/
def riseAboveHysteresis (s : State) : State :=
  match s.sc.supply with
  | .warning none => { s with sc := { s.sc with supply := .warning (some s.tu.elapsed) } }
  | .warning (some _) => s
  | .normal => s

/-- A dip below the hysteresis: the restore timer stops and returns to 0 (R182). -/
def dipBelowHysteresis (s : State) : State :=
  match s.sc.supply with
  | .warning _ => { s with sc := { s.sc with supply := .warning none } }
  | .normal => s

/-- The restore timer reaches 10 ms: NORMAL again, and SUPPLY_RESTORED in RUNNING (R182). -/
def supplyRestored (s : State) : State :=
  match s.sc.supply with
  | .warning (some since) =>
    let s1 := s.advanceTo (since + restoreTime)
    let s2 := { s1 with sc := { s1.sc with supply := .normal } }.setCondition .supplyWarning false
    s2.emit { time := s2.tu.timeCount, kind := .supplyRestored }
  | .warning none => s
  | .normal => s

/-- What the supply does within STARTING, where the monitor runs (R167, R183). -/
def supplyMoment (s : State) : SupplyMoment → State
  | .fall dt => (s.advance dt).fallBelowWarning
  | .rise dt => (s.advance dt).riseAboveHysteresis
  | .dip dt => (s.advance dt).dipBelowHysteresis
  | .restored => s.supplyRestored

/-- The end of a held reset: the supply is compared (R183) and watched through STARTING, STARTING goes on for `starting`
microseconds more and through the steps of R167, as far as `ending` says (R17). -/
def endReset (straps : Straps) (supply : SupplyCourse) (starting : Nat) (ending : StartingEnd) (levels : BitVec 12)
    (s : State) : State :=
  let s1 := { s with sc := { s.sc with resetHeld := false, belowPowerOn := false } }
  let s2 := if supply.below then s1.fallBelowWarning else s1
  let s3 := ((supply.moments.foldl supplyMoment s2).advance starting).readStraps straps
  match ending with
  | .struckBeforeRestore => s3
  | .struckAfterRestore => s3.restore
  | .completes => s3.restore.leaveStarting levels

end State

/-- RESET_POWER_ON (R18, R165). -/
def execResetPowerOn (s : State) : Result := .next s.beginPowerOn

/-- RESET_END (R165, R167). -/
def execResetEnd (straps : Straps) (supply : SupplyCourse) (starting : Nat) (ending : StartingEnd)
    (levels : BitVec 12) (s : State) : Result :=
  .next (if s.sc.resetHeld then s.endReset straps supply starting ending levels else s)

/-- SETUP_WINDOW_EXPIRY: the window reaches 2.0 s and the station enters RUNNING (R170). -/
def execSetupWindowExpiry (levels : BitVec 12) (s : State) : Result :=
  match s.sc.op, s.sc.setupSince with
  | .setup, some since => .next ((s.advanceTo (since + setupWindow)).enterRunning levels)
  | _, _ => .next s

/-- SUPPLY_FALL_BELOW_WARNING (R181); while a reset is held the monitor waits for its end (R183). -/
def execSupplyFallBelowWarning (dt : Nat) (s : State) : Result :=
  .next (if s.sc.resetHeld then s else (s.advance dt).fallBelowWarning)

/-- SUPPLY_RISE_ABOVE_HYSTERESIS (R182). -/
def execSupplyRiseAboveHysteresis (dt : Nat) (s : State) : Result := .next (s.advance dt).riseAboveHysteresis

/-- SUPPLY_DIP_BELOW_HYSTERESIS (R182). -/
def execSupplyDipBelowHysteresis (dt : Nat) (s : State) : Result := .next (s.advance dt).dipBelowHysteresis

/-- RESTORE_TIMER_EXPIRY (R182). -/
def execRestoreTimerExpiry (s : State) : Result := .next s.supplyRestored

/-- SUPPLY_BELOW_RETENTION_LEVEL during a held reset: the restore will find the check unequal (R16). -/
def execSupplyBelowRetentionLevel (s : State) : Result :=
  .next (if s.sc.resetHeld then { s with hr := { s.hr with check := .mismatched } } else s)

end Sys2Proof.Machine
end

