-- ==== Sys2Proof/Machine/Analog.lean ====
section
/-!
DEFINITION. Family: the analog scan (chapter 4).
-/

namespace Sys2Proof.Machine

/-- One step of the dither generator (R79). -/
def ditherStep (v : Nat) : Nat :=
  let b := decide (16384 ≤ v) != decide (8192 ≤ v % 16384)
  2 * v % 32768 + b.toNat

/-- A cyclic position: absent, then 1, 2, …, n, then 1 again (R70, R78). -/
def nextPosition (n : Nat) : Option Nat → Nat
  | none => 1
  | some p => if p ≥ n then 1 else p + 1

/-- The reading of a channel. -/
def readingOf (c : Conversions) : Nat → Nat
  | 0 => c.an0.toNat
  | 1 => c.an1.toNat
  | 2 => c.an2.toNat
  | _ => c.an3.toNat

/-- A run extended by a reading of the scan with this time (R75, R76). -/
def extendRun (run : Option Run) (time : Nat) : Run :=
  match run with
  | none => { count := 1, firstTime := time }
  | some r => { r with count := r.count + 1 }

/-- A transition's event: kind, time of the run's first scan (R77). -/
structure Transition where
  kind : Kind
  time : Nat
  deriving DecidableEq, Repr

/-- A reading in HIGH or LOW that counts towards NORMAL, and towards the opposite excursion where `crosses`: a complete
cross run is taken before a complete return run (R76). -/
def returnOrCross (n time : Nat) (ret cross : Option Run) (crosses : Bool) (stay : Option Run → Option Run → Excursion)
    (opposite : Excursion) (oppositeKind : Kind) : Excursion × Option Transition :=
  let ret' := extendRun ret time
  let cross' := if crosses then some (extendRun cross time) else none
  let completed := cross'.filter fun r => decide (n ≤ r.count)
  match completed with
  | some r => (opposite, some { kind := oppositeKind, time := r.firstTime })
  | none =>
    if n ≤ ret'.count then (.normal none none, some { kind := .analogNormal, time := ret'.firstTime })
    else (stay (some ret') cross', none)

/-- An evaluated reading of a channel (R75, R76, R77). -/
def Excursion.evaluate (x : ChannelSetting) (reading time : Nat) : Excursion → Excursion × Option Transition
  | .normal highRun lowRun =>
    if x.high < reading then
      let run := extendRun highRun time
      if x.qualifyScans ≤ run.count then (.high none none, some { kind := .analogHigh, time := run.firstTime })
      else (.normal (some run) none, none)
    else if reading < x.low then
      let run := extendRun lowRun time
      if x.qualifyScans ≤ run.count then (.low none none, some { kind := .analogLow, time := run.firstTime })
      else (.normal none (some run), none)
    else (.normal none none, none)
  | .high ret cross =>
    if reading < x.high - x.hysteresis then
      returnOrCross x.qualifyScans time ret cross (decide (reading < x.low)) .high (.low none none) .analogLow
    else (.high none none, none)
  | .low ret cross =>
    if x.low + x.hysteresis < reading then
      returnOrCross x.qualifyScans time ret cross (decide (x.high < reading)) .low (.high none none) .analogHigh
    else (.low none none, none)

/-- The trigger-enabled indication of a transition (R77). -/
def ChannelSetting.triggerOf (x : ChannelSetting) (ch : Nat) (t : Transition) : Option (Cause × Option Nat) :=
  if t.kind = .analogHigh ∧ x.triggerHigh then some (.localAnalog ch .high, some t.time)
  else if t.kind = .analogLow ∧ x.triggerLow then some (.localAnalog ch .low, some t.time)
  else none

/-- The time of a scan (R67). -/
def Scan.time : Scan → Nat
  | .settling t => t
  | .counted t => t

namespace State

/-- The setting of a channel; one that the section does not list is not enabled. -/
def channelSetting (ch : Nat) (s : State) : ChannelSetting := s.sc.config.analog.channels.getD ch profileChannelOff

/-- The excursion record of a channel. -/
def excursion (ch : Nat) (s : State) : Excursion := s.an.channels.getD ch (.normal none none)

/-- The start of a counted scan: the check position, the interval position and, at an interval's first scan, the
offset (R70, R78). -/
def countScan (s : State) : State :=
  let n := s.sc.config.analog.interval
  let s1 := { s with an := { s.an with checkPos := some (nextPosition checkCycle s.an.checkPos) } }
  if n = 0 then s1
  else
    let p := nextPosition n s.an.intervalPos
    let s2 := { s1 with an := { s1.an with intervalPos := some p } }
    if p = 1 then
      if s.sc.config.analog.dither then
        let v := ditherStep s.an.dither
        { s2 with an := { s2.an with dither := v, offset := some (v % 16) } }
      else { s2 with an := { s2.an with offset := some 0 } }
    else s2

/-- A scan starts: the first is the settling scan (R67, R68). -/
def startScan (s : State) : State :=
  if s.an.settled then
    let s' := s.countScan
    { s' with an := { s'.an with scan := some (.counted s.tu.timeCount) } }
  else { s with an := { s.an with settled := true, scan := some (.settling s.tu.timeCount) } }

/-- The reference result of a check scan: whether the scan is a fault scan (R70 to R74). -/
def checkReference (time : Nat) (c : Conversions) (s : State) : State × Bool :=
  let highBad := decide (c.refH.toNat < refHighMin)
  let fails := highBad || decide (refLowMax < c.refL.toNat)
  match s.an.reference with
  | .healthy =>
    if fails then
      let s1 := { s with an := { s.an with reference := .fault 0 } }
      let s2 := s1.emit
        { time, kind := .analogFault, subject := some (if highBad then subjectRefH else subjectRefL),
          value := some (if highBad then c.refH.toNat else c.refL.toNat) }
      (s2.setCondition .analogFault true, true)
    else (s, false)
  | .fault passes =>
    if fails then ({ s with an := { s.an with reference := .fault 0 } }, true)
    else if passes < 2 then ({ s with an := { s.an with reference := .fault (passes + 1) } }, true)
    else
      let s1 := { s with an := { s.an with
        reference := .healthy, channels := List.replicate 4 (.normal none none) } }
      ((s1.emit { time, kind := .analogRecovered }).setCondition .analogFault false, false)

/-- The excursion evaluation of one channel (R75 to R77). -/
def evaluateChannel (time reading ch : Nat) (s : State) : State :=
  let x := s.channelSetting ch
  if x.enable then
    let (e, transition) := (s.excursion ch).evaluate x reading time
    let s' := { s with an := { s.an with channels := s.an.channels.set ch e } }
    match transition with
    | none => s'
    | some t =>
      s'.emit { time := t.time, kind := t.kind, subject := some ch, value := some reading,
                trigger := x.triggerOf ch t }
  else s

/-- The snapshot of one channel (R78). -/
def snapshotChannel (time reading ch : Nat) (s : State) : State :=
  let x := s.channelSetting ch
  if x.enable && x.snapshot then
    s.emit { time, kind := .analogSnapshot, subject := some ch, value := some reading }
  else s

/-- The scan is the snapshot scan of its interval (R78). -/
def snapshotDue (s : State) : Bool :=
  match s.an.intervalPos, s.an.offset with
  | some p, some d => s.sc.config.analog.interval != 0 && p == s.sc.config.analog.interval - d
  | _, _ => false

/-- The excursions of the four channels, in channel order (R80). -/
def evaluateChannels (time : Nat) (c : Conversions) (s : State) : State :=
  [0, 1, 2, 3].foldl (fun s ch => s.evaluateChannel time (readingOf c ch) ch) s

/-- The snapshots of the four channels, in channel order (R80). -/
def snapshotChannels (time : Nat) (c : Conversions) (s : State) : State :=
  [0, 1, 2, 3].foldl (fun s ch => s.snapshotChannel time (readingOf c ch) ch) s

/-- The evaluation of a counted scan: reference, excursions, snapshots (R80). -/
def evaluateScan (time : Nat) (c : Conversions) (s : State) : State :=
  let due := s.snapshotDue
  let checked := if s.an.checkPos = some checkCycle then s.checkReference time c
    else (s, decide (s.an.reference ≠ .healthy))
  if checked.2 then checked.1
  else
    let s' := checked.1.evaluateChannels time c
    if due then s'.snapshotChannels time c else s'

end State

/-- SCAN_START, at the moment the next scan is due (R67). -/
def execScanStart (s : State) : Result :=
  match s.sc.op, s.an.nextScan, s.an.scan with
  | .running, some due, none =>
    let s' := s.advanceTo due
    .next ({ s' with an := { s'.an with nextScan := some (due + scanInterval) } }.startScan)
  | _, _, _ => .next s

/-- SCAN_EVALUATION: a settling scan is discarded (R68), a counted scan is evaluated (R80). -/
def execScanEvaluation (dt : Nat) (c : Conversions) (s : State) : Result :=
  let s' := s.advance dt
  let done := { s' with an := { s'.an with scan := none } }
  match s'.an.scan with
  | none => .next s'
  | some (.settling _) => .next done
  | some (.counted time) => .next (done.evaluateScan time c)

end Sys2Proof.Machine
end

