-- ==== Sys2Proof/Machine/CaptureTimers.lean ====
section
/-!
DEFINITION. Family: the capture record's own timers (R38, R40).
-/

namespace Sys2Proof.Machine

/-- POST_TIME_EXPIRY: post elapsed reaches the post time in POST (R38). -/
def execPostTimeExpiry (s : State) : Result :=
  match s.cc.record.st, s.cc.postClock with
  | .post _, some (.running since) => .next ((s.advanceTo (since + s.station.postTime * tenMs)).freeze .timeElapsed)
  | _, _ => .next s

/-- HOLD_LIMIT_EXPIRY: frozen elapsed reaches a hold limit other than 0 (R40). -/
def execHoldLimitExpiry (s : State) : Result :=
  match s.cc.record.st, s.cc.frozenClock with
  | .frozen _ _, some (.running since) =>
    .next (if s.station.holdLimit = 0 then s
      else (s.advanceTo (since + s.station.holdLimit * minute)).release .holdLimit)
  | _, _ => .next s

end Sys2Proof.Machine
end

