-- ==== Sys2Proof/Machine/Line.lean ====
section
/-!
DEFINITION. Family: line access (chapter 7) and the frame sources' items (R28, R92, R93, R106). The end of a
transmission stands in Machine/Outcomes.lean.
-/

namespace Sys2Proof.Machine

/-- One step of the back-off generator (R133). -/
def backoffStep (v : Nat) : Nat :=
  let b := decide (v % 2 = 1) != decide (v / 2 % 2 = 1)
  v / 2 + 16384 * b.toNat

/-- The slots drawn after the k-th collision of an item, from the stepped generator (R133). -/
def backoffSlots (v k : Nat) : Nat := v % 2 ^ min k 5

namespace State

/-- The idle gap is met: the quiet time has reached 32 bit times (R123). -/
def idleGapMet (s : State) : Bool :=
  match s.lc.quietSince with
  | none => false
  | some since => decide (since + idleGap ≤ s.tu.elapsed)

/-- The item a source holds (R127). -/
def holdsItem (src : Source) (s : State) : Bool :=
  match src with
  | .trigger => s.cc.pendingTrigger.isSome
  | .reply => s.rh.slot.isSome
  | .beacon => s.tu.beaconPending
  | .event => s.er.batch.isSome || !s.er.queue.isEmpty || decide (0 < s.er.drops)

/-- In RUNNING all sources are eligible, in SETUP the reply alone (R128). -/
def eligible (src : Source) (s : State) : Bool :=
  match s.sc.op with
  | .starting => false
  | .startFault => false
  | .setup => src == .reply
  | .running => true

/-- The item of the highest priority among those eligible and pending (R128). -/
def chosenSource (s : State) : Option Source :=
  [Source.trigger, .reply, .beacon, .event].find? fun src => s.eligible src && s.holdsItem src

/-- The arbiter acts: QUIET, no back-off, the idle gap met (R128). -/
def arbiterReady (s : State) : Bool := s.lc.line == .quiet && s.lc.backoffEnd.isNone && s.idleGapMet

/-- A frame of this station: own address as source, 31 as destination (R124 Note 1). -/
def ownFrame (kind : Byte) (payload : List Byte) (s : State) : Frame :=
  { kind, src := s.addressByte, dst := broadcast, payload }

/-- A batch is formed unless one is in flight (R92). -/
def formBatch (s : State) : State :=
  match s.er.batch with
  | some _ => s
  | none =>
    let number := cyclicNext s.er.batchNumber
    { s with er := { s.er with
        batch := some { number, drops := s.er.drops, records := min batchRecords s.er.queue.length }
        drops := 0
        batchNumber := number } }

/-- A queue entry as the record that carries it (R93). -/
def queueDraft (q : QueueEntry) (s : State) : Draft :=
  { time := q.time, origin := s.address, originSeq := q.ownSeq, kind := q.kind, subject := q.subject,
    value := q.value, capture := none, sync := q.sync }

/-- The payload of the batch in flight (R93). -/
def batchPayload (s : State) : List Byte :=
  match s.er.batch with
  | none => []
  | some b =>
    eventPayload { number := b.number, drops := b.drops,
                   records := (s.er.queue.take b.records).map fun q => s.queueDraft q }

/-- The payload of a beacon staged now; the sender time is still open (R36, R106, R129). -/
def stagedBeacon (s : State) : List Byte :=
  beaconPayload
    { sender := 0, sync := s.tu.sync, capture := s.cc.record.st.name,
      tag := s.cc.record.st.current.map Current.timedTag }

/-- The frame built from a source's item as it stands (R129). -/
def itemFrame (src : Source) (s : State) : Option Frame :=
  match src with
  | .trigger => s.cc.pendingTrigger.map fun t => s.ownFrame kindTrigger (triggerPayload t)
  | .reply => s.rh.slot
  | .beacon => some (s.ownFrame kindBeacon s.stagedBeacon)
  | .event => some (s.ownFrame kindEvent s.batchPayload)

/-- Staging of a source's item; the EVENT source first forms its batch (R92, R129). -/
def stage (src : Source) (s : State) : State :=
  let s' := if src = .event then s.formBatch else s
  match s'.itemFrame src with
  | none => s'
  | some frame => { s' with lc := { s'.lc with line := .staged s'.tu.elapsed { source := src, frame } } }

/-- The line is quiet: the quiet time runs from now unless it already runs, the activity time is 0 (R123, R141). -/
def lineQuiet (s : State) : State :=
  { s with lc := { s.lc with
      activeSince := none
      quietSince := match s.lc.quietSince with
        | none => some s.tu.elapsed
        | some since => some since } }

/-- The line state when nothing is received or sent: BACKOFF while a back-off runs, else QUIET (R134, R140). -/
def restingLine (s : State) : LineState := if s.lc.backoffEnd.isSome then .backoff else .quiet

/-- A reception ends broken: the broken count rises, the buffer is freed (R137, R138). -/
def breakReception (s : State) : State :=
  { s with lc := { s.lc with broken := satAdd top16 s.lc.broken 1, line := s.restingLine } }

/-- A collision of the frame being sent: attempt count k, collision count, back-off of the drawn slots (R132, R133,
R136). -/
def collide (k : Nat) (s : State) : State :=
  let v := backoffStep s.lc.generator
  { s with lc := { s.lc with
      line := .backoff
      collisions := satAdd top16 s.lc.collisions 1
      generator := v
      backoffEnd := match s.lc.backoffEnd with
        | none => some (s.tu.elapsed + backoffSlots v k * slotTime)
        | some e => some e } }

/-- The line becomes active: a reception begins in QUIET, STAGED and BACKOFF; a staged frame is given up (R130,
R137). -/
def activityBegins (s : State) : State :=
  { s with lc := { s.lc with
      activeSince := some s.tu.elapsed
      quietSince := none
      line := match s.lc.line with
        | .quiet => .receiving none
        | .receiving stamp => .receiving stamp
        | .staged _ _ => .receiving none
        | .transmitting since out w => .transmitting since out w
        | .backoff => .receiving none
        | .stuck => .stuck } }

/-- The line is stuck: a reception is broken, STUCK, the condition and, in RUNNING, the event (R141). -/
def becomeStuck (s : State) : State :=
  let s1 := match s.lc.line with
    | .receiving _ => s.breakReception
    | .quiet => s
    | .staged _ _ => s
    | .transmitting _ _ _ => s
    | .backoff => s
    | .stuck => s
  let s2 := { s1 with lc := { s1.lc with line := .stuck } }.setCondition .lineStuck true
  s2.emit { time := s2.tu.timeCount, kind := .lineStuck }

/-- A stuck line is recovered (R142). -/
def recoverLine (s : State) : State :=
  let s1 := { s with lc := { s.lc with line := s.restingLine, activeSince := none } }.setCondition .lineStuck false
  s1.emit { time := s1.tu.timeCount, kind := .lineRecovered }

end State

/-- The frame with the sender time in its first six bytes, if it is a beacon (R106, R131). -/
def Outgoing.stamp (o : Outgoing) (time : Nat) : Outgoing :=
  match o.source with
  | .trigger => o
  | .reply => o
  | .beacon => { o with frame := { o.frame with payload := natBE 6 time ++ o.frame.payload.drop 6 } }
  | .event => o

/-- IDLE_GAP_MET: it enables the arbiter, or recovers a stuck line (R123, R142). -/
def execIdleGapMet (s : State) : Result :=
  match s.lc.quietSince with
  | none => .next s
  | some since =>
    let s' := s.advanceTo (since + idleGap)
    .next (if s'.lc.line = .stuck then s'.recoverLine else s')

/-- ARBITER_SELECT (R128, R129). -/
def execArbiterSelect (s : State) : Result :=
  match s.arbiterReady, s.chosenSource with
  | true, some src => .next (s.stage src)
  | _, _ => .next s

/-- STAGING_END: transmission starts, and the own signal makes the line active (R129). -/
def execStagingEnd (s : State) : Result :=
  match s.lc.line with
  | .staged since out =>
    let s' := s.advanceTo (since + stagingTime)
    .next { s' with lc := { s'.lc with
      line := .transmitting s'.tu.elapsed out none, activeSince := some s'.tu.elapsed, quietSince := none } }
  | .quiet => .next s
  | .receiving _ => .next s
  | .transmitting _ _ _ => .next s
  | .backoff => .next s
  | .stuck => .next s

/-- ACTIVITY_BEGINS, after the line was quiet and with the receiver on (R137, R145). -/
def execActivityBegins (dt : Nat) (s : State) : Result :=
  let s' := s.advance dt
  .next (if s'.receiverOn && s'.lc.activeSince.isNone then s'.activityBegins else s')

/-- BACKOFF_EXPIRY (R134). -/
def execBackoffExpiry (s : State) : Result :=
  match s.lc.backoffEnd with
  | none => .next s
  | some e =>
    let s' := s.advanceTo e
    .next { s' with lc := { s'.lc with
      backoffEnd := none, line := if s'.lc.line = .backoff then .quiet else s'.lc.line } }

/-- ACTIVITY_TIME_EXPIRY: 1 ms of activity without a valid frame end (R141, R143). -/
def execActivityTimeExpiry (s : State) : Result :=
  match s.lc.activeSince, s.lc.line with
  | some since, .quiet => .next (s.advanceTo (since + stuckTime)).becomeStuck
  | some since, .receiving _ => .next (s.advanceTo (since + stuckTime)).becomeStuck
  | some since, .backoff => .next (s.advanceTo (since + stuckTime)).becomeStuck
  | _, _ => .next s

/-- RECEPTION_BROKEN: the line became quiet first, or what was heard up to the end delimiter's place fails R138. The
activity time of a reception that ended at a delimiter runs on until the line becomes quiet (R141). (A reception that
brought a valid frame is not broken: the frame's own command ends it, and this one leaves it, log 4.) -/
def execReceptionBroken (dt : Nat) (how : ReceptionEnd) (s : State) : Result :=
  let s' := s.advance dt
  match s'.lc.line, how with
  | .receiving _, .becameQuiet => .next s'.lineQuiet.breakReception
  | .receiving stamp, .atDelimiter heard =>
    .next (if stamp.isSome && heard.frame.isSome then s' else s'.breakReception)
  | _, _ => .next s'

/-- LINE_BECOMES_QUIET (R123, R141). -/
def execLineBecomesQuiet (dt : Nat) (s : State) : Result :=
  let s' := s.advance dt
  .next (if s'.lc.activeSince.isSome then s'.lineQuiet else s')

/-- FRAME_START_INSTANT: the receive stamp, or the sender time of a beacon (R106, R124, R131, R137). -/
def execFrameStartInstant (dt : Nat) (s : State) : Result :=
  let s' := s.advance dt
  match s'.lc.line with
  | .receiving none => .next { s' with lc := { s'.lc with line := .receiving (some s'.tu.timeCount) } }
  | .transmitting since out w =>
    let s'' := s'.advanceTo (since + startInstant)
    .next { s'' with lc := { s''.lc with line := .transmitting since (out.stamp s''.tu.timeCount) w } }
  | .receiving (some _) => .next s'
  | .quiet => .next s'
  | .staged _ _ => .next s'
  | .backoff => .next s'
  | .stuck => .next s'

end Sys2Proof.Machine
end

