-- ==== Sys2Proof/Machine/TimePeers.lean ====
section
/-!
DEFINITION. Family: the Time Unit's and the Peer Monitor's own moments (chapter 6).
-/

namespace Sys2Proof.Machine

namespace State

/-- The offset of a beacon within its period: address × B / 32, fraction discarded (R104). -/
def beaconOffset (s : State) : Nat := s.address * s.period / 32

/-- The entry of a peer address in the table; addresses outside 1 to 30 have none (R113). -/
def peer (address : Nat) (s : State) : Option PeerEntry := if address = 0 then none else s.pm.peers[address - 1]?

def setPeer (address : Nat) (p : PeerEntry) (s : State) : State :=
  { s with pm := { s.pm with peers := s.pm.peers.set (address - 1) p } }

end State

/-- BEACON_DUE: the due moment of the next period of the schedule; a pending beacon stands (R104). -/
def execBeaconDue (s : State) : Result :=
  match s.sc.op, s.tu.schedule with
  | .running, some plan =>
    let s' := s.advanceTo (plan.origin + plan.taken * s.period + s.beaconOffset)
    let s'' := { s' with tu := { s'.tu with schedule := some { plan with taken := plan.taken + 1 } } }
    .next (if s.tu.beaconPending then s''
      else { s'' with tu := { s''.tu with beaconPending := true },
                      lc := { s''.lc with attempts := s''.lc.attempts.put .beacon 0 } })
  | _, _ => .next s

/-- SYNC_TIMER_EXPIRY: 4 × B in SYNCED (R110). -/
def execSyncTimerExpiry (s : State) : Result :=
  match s.tu.sync, s.tu.syncSince with
  | .synced, some since =>
    let s1 := s.advanceTo (since + syncPeriods * s.period)
    let s2 := { s1 with tu := { s1.tu with sync := .lost, syncSince := none } }
    .next (s2.emit { time := s2.tu.timeCount, kind := .syncLost })
  | _, _ => .next s

/-- TIME_COUNT_TOP: the count reaches its top value and holds there (R102). -/
def execTimeCountTop (s : State) : Result := .next (s.advance (timeTop - s.tu.timeCount))

/-- PEER_PRESENCE_EXPIRY: a present peer silent for 8 × B becomes absent (R116). -/
def execPeerPresenceExpiry (peer : BitVec 5) (s : State) : Result :=
  match s.peer peer.toNat with
  | none => .next s
  | some p =>
    if p.present then
      let s1 := s.advanceTo (p.lastFrame + presencePeriods * s.period)
      let s2 := s1.setPeer peer.toNat { p with present := false, lastBatch := none, beacon := none }
      .next (s2.emit { time := s2.tu.timeCount, kind := .peerLost, subject := some peer.toNat })
    else .next s

/-- CLASH_WINDOW_EXPIRY: 8 × B without a clash frame (R119, R120). -/
def execClashWindowExpiry (s : State) : Result :=
  match s.pm.clashSince with
  | none => .next s
  | some since =>
    let s1 := s.advanceTo (since + presencePeriods * s.period)
    let s2 := { s1 with pm := { s1.pm with clashSince := none } }.setCondition .addressClash false
    .next (s2.emit { time := s2.tu.timeCount, kind := .addressClashEnd })

end Sys2Proof.Machine
end

