-- ==== Sys2Proof/Machine/Frames.lean ====
section
/-!
DEFINITION. Family: frames from the line (R107 to R118, R97 to R100, R137 to R140, R188).
-/

namespace Sys2Proof.Machine

namespace State

/-! ## The end of a reception (R138, R140) -/

/-- A valid frame has ended: the good count rises, the buffer is freed, and the activity time starts from 0 again while
the line is active (R138, R140, R141). -/
def acceptReception (s : State) : State :=
  { s with lc := { s.lc with
      good := satAdd top16 s.lc.good 1
      line := s.restingLine
      activeSince := match s.lc.activeSince with
        | none => none
        | some _ => some s.tu.elapsed } }

/-- A frame ends at its end delimiter: R138 decides, and `take` is what the blocks of Table 7-4 then do, given the
receive stamp. A reception in which no start delimiter was found is broken (R137). A broken frame does not end the
activity time: that runs on until the line becomes quiet (R141). -/
def receive (f : Frame) (take : Nat → State → State) (s : State) : State :=
  match s.lc.line with
  | .receiving (some stamp) => if f.broken then s.breakReception else take stamp s.acceptReception
  | .receiving none => s.breakReception
  | .quiet => s
  | .staged _ _ => s
  | .transmitting _ _ _ => s
  | .backoff => s
  | .stuck => s

/-! ## Peer Monitor -/

/-- A valid frame from a peer: since-last-frame restarts, an absent peer becomes present with PEER_SEEN (R114). -/
def peerHeard (src : Nat) (s : State) : State :=
  match s.peer src with
  | none => s
  | some p =>
    let s' := s.setPeer src { p with present := true, lastFrame := s.tu.elapsed }
    if p.present then s' else s'.emit { time := s.tu.timeCount, kind := .peerSeen, subject := some src }

/-- The beacon part is replaced (R115). -/
def noteBeacon (src : Nat) (b : BeaconFields) (s : State) : State :=
  match s.peer src with
  | none => s
  | some p => s.setPeer src { p with beacon := some { sync := b.sync, capture := b.capture } }

/-- A clash frame restarts the clash window and sets the condition (R118). -/
def clashFrame (s : State) : State :=
  let s' := { s with pm := { s.pm with clashSince := some s.tu.elapsed } }
  if s.sc.conditions.addressClash then s'
  else (s'.setCondition .addressClash true).emit { time := s.tu.timeCount, kind := .addressClash }

/-! ## Time Unit -/

/-- The time count after a step by `d` microseconds, for `d` above the tolerance (R108). -/
def steppedCount (d : Int) (s : State) : Nat :=
  if (s.station.tolerance : Int) < d then min (s.tu.timeCount + d.toNat) timeTop else s.tu.timeCount

/-- The step, with TIME_STEP if the count moved (R108, R109 steps 1 and 2). -/
def stepTime (d : Int) (s : State) : State :=
  let count := s.steppedCount d
  let size := count - s.tu.timeCount
  let s' := { s with tu := { s.tu with timeCount := count } }
  if 0 < size then s'.emit { time := count, kind := .timeStep, value := some size } else s'

/-- A qualifying beacon: SYNCED, the sync timer from 0, and SYNC_GAINED from FREE or LOST (R109 step 3, R110). -/
def gainSync (s : State) : State :=
  let s' := { s with tu := { s.tu with sync := .synced, syncSince := some s.tu.elapsed } }
  if s.tu.sync = .synced then s' else s'.emit { time := s.tu.timeCount, kind := .syncGained }

/-- The Time Unit takes one beacon as one action; the offset is sender time less receive stamp (R107 to R109). -/
def takeBeaconTime (sender stamp : Nat) (s : State) : State :=
  let d : Int := (sender : Int) - (stamp : Int)
  let s' := s.stepTime d
  if -(s.station.tolerance : Int) ≤ d then s'.gainSync else s'

/-! ## Event Router: heard frames (R97 to R100) -/

/-- A heard record is handed to the ring when its class is in the heard mask (R99). A reset can strike after its write
(R101). -/
def writeHeard (s : State) (d : Draft) : State :=
  if s.station.heardMask.getLsbD d.kind.class then (s.write d).1.passPoint else s

/-- The GAP entry of a heard frame (R98). -/
def gapDraft (src drops : Nat) (s : State) : Draft :=
  { time := s.tu.timeCount, origin := src, originSeq := none, kind := .gap, subject := none, value := some drops,
    capture := none, sync := s.tu.sync }

/-- A heard EVENT frame that is not a repeat, in RUNNING: the GAP, then the records in frame order (R97). -/
def takeHeard (src : Nat) (e : EventFields) (s : State) : State :=
  if s.sc.op = .running then
    let s' := if 0 < e.drops then s.writeHeard (s.gapDraft src e.drops) else s
    e.records.foldl writeHeard s'
  else s

/-- The repeat test by batch number (R117). -/
def takeEvent (src : Nat) (e : EventFields) (s : State) : State :=
  match s.peer src with
  | none => s
  | some p =>
    if p.lastBatch = some e.number then s
    else (s.setPeer src { p with lastBatch := some e.number }).takeHeard src e

/-! ## Dispatch (R139, Table 7-4) and the range checks after presence (R188) -/

/-- A BEACON: Peer Monitor, Time Unit, Capture Controller. -/
def takeBeacon (src stamp : Nat) (payload : List Byte) (s : State) : State :=
  match parseBeacon payload with
  | none => s
  | some b => ((s.noteBeacon src b).takeBeaconTime b.sender stamp).takeGossip b.capture b.tag

/-- A valid frame of a station kind to the own address or to all, after presence. -/
def takeStationFrame (f : Frame) (stamp : Nat) (s : State) : State :=
  if f.kind = kindBeacon then s.takeBeacon f.src.toNat stamp f.payload
  else if f.kind = kindTrigger then
    match parseTrigger f.payload with
    | none => s
    | some z => s.takeTrigger z
  else if f.kind = kindEvent then
    match parseEvent f.src.toNat f.payload with
    | none => s
    | some e => s.takeEvent f.src.toNat e
  else s

/-- The frame is for this station. A destination above 31, which R138 does not call broken and Table 7-4 gives no row, is
taken for that of another station (DEDUCED, log 35). -/
def addressed (dst : Byte) (s : State) : Bool := dst == s.addressByte || dst == broadcast

/-- Dispatch of a valid frame that is no request to this station: a clash frame, a peer's frame, or one from a service
node that is dropped or ignored. -/
def dispatch (f : Frame) (stamp : Nat) (s : State) : State :=
  if f.src = s.addressByte then s.clashFrame
  else if f.src = 0#8 then s
  else
    let s' := s.peerHeard f.src.toNat
    if s.addressed f.dst then s'.takeStationFrame f stamp else s'

end State

/-- BEACON_RECEIVED (R107 to R109, R114, R115, R32). -/
def execBeaconReceived (dt : Nat) (src dst : Byte) (payload : List Byte) (s : State) : Result :=
  let f : Frame := { kind := kindBeacon, src, dst, payload }
  .next ((s.advance dt).receive f (State.dispatch f))

/-- TRIGGER_RECEIVED (R30, R114). -/
def execTriggerReceived (dt : Nat) (src dst : Byte) (payload : List Byte) (s : State) : Result :=
  let f : Frame := { kind := kindTrigger, src, dst, payload }
  .next ((s.advance dt).receive f (State.dispatch f))

/-- EVENT_RECEIVED (R97 to R100, R114, R117). -/
def execEventReceived (dt : Nat) (src dst : Byte) (payload : List Byte) (s : State) : Result :=
  let f : Frame := { kind := kindEvent, src, dst, payload }
  .next ((s.advance dt).receive f (State.dispatch f))

/-- CLASH_FRAME_RECEIVED: its source is the own address (R118). -/
def execClashFrameReceived (dt : Nat) (kind dst : Byte) (payload : List Byte) (s : State) : Result :=
  let f : Frame := { kind, src := s.addressByte, dst, payload }
  .next ((s.advance dt).receive f (State.dispatch f))

/-- OTHER_FRAME_RECEIVED: presence at most (R139). -/
def execOtherFrameReceived (dt : Nat) (f : Frame) (s : State) : Result :=
  .next ((s.advance dt).receive f (State.dispatch f))

end Sys2Proof.Machine
end

