-- ==== Sys2Proof/Machine/Inputs.lean ====
section
/-!
DEFINITION. Family: the event inputs (chapter 3).
-/

namespace Sys2Proof.Machine

/-- The active level under RISE and FALL (R48). -/
def Sensitivity.active : Sensitivity → Option Bool
  | .off => none
  | .rise => some true
  | .fall => some false
  | .both => none

/-- A change to `level` lies in a sensitive direction (R55). -/
def Sensitivity.reports (x : Sensitivity) (level : Bool) : Bool :=
  match x with
  | .off => false
  | .rise => level
  | .fall => !level
  | .both => true

/-- A repeat timer started now, if the level is the active level and R > 0 (R56). -/
def InputSetting.startRepeat (x : InputSetting) (level : Bool) (now : Nat) : Option RepeatTimer :=
  if x.sensitivity.active = some level ∧ 0 < x.repeatEvery then some { since := now, produced := 0 } else none

namespace State

/-- The record of input `n`. -/
def input (n : Nat) (s : State) : InputRecord := s.iq.getD n InputRecord.cleared

def setInput (n : Nat) (r : InputRecord) (s : State) : State := { s with iq := s.iq.set n r }

/-- Input `n` is observed: RUNNING, and a sensitivity other than OFF (R48). -/
def observes (n : Nat) (s : State) : Bool := s.sc.op == .running && (s.inputSetting n).sensitivity != .off

/-- The change event of a qualified change, in a sensitive direction (R55). -/
def changeEvent (n : Nat) (level : Bool) (edgeTime : Nat) (s : State) : State :=
  let x := s.inputSetting n
  if x.sensitivity.reports level then
    s.emit { time := edgeTime, kind := if level then .inputRise else .inputFall, subject := some n,
             trigger := if x.trigger then some (.localInput n, some edgeTime) else none }
  else s

/-- The chatter count of a qualified change in NORMAL: it opens a window, adds to it, or suspends the input (R58,
R59). -/
def countChatter (n : Nat) (level : Bool) (window : Option ChatterWindow) (rep : Option RepeatTimer) (s : State) :
    State :=
  let c := (s.inputSetting n).chatterLimit
  let now := s.tu.elapsed
  if c = 0 then s
  else
    match window with
    | none => s.setInput n { level := some level, qual := none, mode := .normal (some { count := 1, since := now }) rep }
    | some w =>
      if w.count + 1 = c then
        (s.emit { time := s.tu.timeCount, kind := .chatterStart, subject := some n, value := some c }).setInput n
          { level := some level, qual := none, mode := .suspended now }
      else
        s.setInput n
          { level := some level, qual := none, mode := .normal (some { w with count := w.count + 1 }) rep }

/-- The processing of a qualified change (R54, R60). -/
def qualifiedChange (n : Nat) (level : Bool) (edgeTime : Nat) (s : State) : State :=
  match (s.input n).mode with
  | .suspended _ => s.setInput n { level := some level, qual := none, mode := .suspended s.tu.elapsed }
  | .normal window _ =>
    let rep := (s.inputSetting n).startRepeat level s.tu.elapsed
    let s' := s.setInput n { level := some level, qual := none, mode := .normal window rep }
    (s'.changeEvent n level edgeTime).countChatter n level window rep

/-- An edge: while qualifying it is the return, otherwise the first edge of a change; with q = 0 the change is
qualified at once (R51 to R53). -/
def edge (n : Nat) (s : State) : State :=
  let r := s.input n
  match r.level, r.qual with
  | none, _ => s
  | some _, some _ => s.setInput n { r with qual := none }
  | some level, none =>
    if (s.inputSetting n).qualify = 0 then s.qualifiedChange n (!level) s.tu.timeCount
    else s.setInput n
      { r with qual := some { edgeTime := s.tu.timeCount, target := !level, since := s.tu.elapsed } }

end State

/-- INPUT_EDGE (R51). -/
def execInputEdge (dt : Nat) (n : Fin 12) (s : State) : Result :=
  let s' := s.advance dt
  .next (if s'.observes n then s'.edge n else s')

/-- QUALIFY_TIME_EXPIRY: q has elapsed at the target level (R52). -/
def execQualifyTimeExpiry (n : Fin 12) (s : State) : Result :=
  match s.observes n, (s.input n).qual with
  | true, some x =>
    .next ((s.advanceTo (x.since + (s.inputSetting n).qualify * qualifyUnit)).qualifiedChange n x.target x.edgeTime)
  | _, _ => .next s

/-- REPEAT_TIMER_EXPIRY: the timer reaches (k + 1) × R (R57). -/
def execRepeatTimerExpiry (n : Fin 12) (s : State) : Result :=
  match s.observes n, (s.input n).mode with
  | true, .normal window (some rep) =>
    let every := (s.inputSetting n).repeatEvery
    let k := rep.produced + 1
    let s' := s.advanceTo (rep.since + k * every * second)
    let r := s'.input n
    .next ((s'.setInput n { r with mode := .normal window (some { rep with produced := k }) }).emit
      { time := s'.tu.timeCount, kind := .inputStillActive, subject := some n, value := some (k * every) })
  | _, _ => .next s

/-- CHATTER_WINDOW_EXPIRY: the window closes silently at 1 s (R58). -/
def execChatterWindowExpiry (n : Fin 12) (s : State) : Result :=
  match s.observes n, (s.input n).mode with
  | true, .normal (some w) rep =>
    let s' := s.advanceTo (w.since + chatterSpan)
    let r := s'.input n
    .next (s'.setInput n { r with mode := .normal none rep })
  | _, _ => .next s

/-- REST_TIMER_EXPIRY: CHATTER_END, NORMAL again, and the repeat timer at the active level (R61). -/
def execRestTimerExpiry (n : Fin 12) (s : State) : Result :=
  match s.observes n, (s.input n).mode, (s.input n).level with
  | true, .suspended since, some level =>
    let x := s.inputSetting n
    let s' := s.advanceTo (since + x.chatterRest * second)
    let r := s'.input n
    .next ((s'.emit { time := s'.tu.timeCount, kind := .chatterEnd, subject := some n, value := some level.toNat }).setInput
      n { r with mode := .normal none (x.startRepeat level s'.tu.elapsed) })
  | _, _, _ => .next s

end Sys2Proof.Machine
end

