-- ==== Sys2Proof/Machine/Requests.lean ====
section
/-!
DEFINITION. Family: service requests (chapter 8; R41 to R43, R175, R179) and their replies (Tables 10-15, 10-16).
-/

namespace Sys2Proof.Machine

namespace State

/-! ## The reply slot (R150, R151) -/

/-- A reply takes the slot as a fresh item; a former reply leaves it unsent (R150, R153). -/
def placeReply (kind : Byte) (payload : List Byte) (s : State) : State :=
  let s' := s.endReply
  { s' with rh := { s'.rh with slot := some (s'.ownFrame kind payload) },
            lc := { s'.lc with attempts := s'.lc.attempts.put .reply 0 } }

/-- RESULT: the kind of the request answered, and the result code (R153). -/
def placeResult (request : Byte) (code : ResultCode) (s : State) : State :=
  s.placeReply kindResult [request, code.code]

/-- The answer to an addressed request; a broadcast one empties the slot (R151, R152). -/
def answer (toAll : Bool) (request : Byte) (code : ResultCode) (s : State) : State :=
  if toAll then s.endReply else s.placeResult request code

/-! ## Reading state -/

/-- STATE page 0 (Tables 8-2, 10-15). -/
def page0 (s : State) : List Byte :=
  let cur := s.cc.record.st.current
  let freezeCode := match s.cc.record.st with
    | .off => 0
    | .armed => 0
    | .post _ => 0
    | .frozen _ reason => reason.code
  [0#8, s.addressByte, 0x16#8, 0x01#8, byteOf s.sc.op.code, byteOf s.sc.cause.code, byteOf s.tu.sync.code] ++
    natBE 6 s.tu.timeCount ++ [byteOf s.cc.record.st.name.code] ++
    (match cur with
     | some c =>
       [byteOf c.tag.origin, byteOf c.tag.serial] ++ natBE 6 c.triggerTime ++ [byteOf c.cause.code] ++ natBE 4 c.markSeq
     | none => List.replicate 13 0#8) ++
    natBE 2 s.cc.record.postWritten ++ [byteOf freezeCode]

/-- STATE page 1 (Tables 8-3, 10-15). -/
def page1 (s : State) : List Byte :=
  [1#8] ++ natBE 4 s.hr.oldestSeq ++ natBE 4 s.hr.newestSeq ++ natBE 2 s.hr.held ++ [byteOf s.sc.conditions.code] ++
    natBE 2 s.lc.good ++ natBE 2 s.lc.broken ++ natBE 2 s.lc.collisions ++ natBE 2 s.lc.abandoned ++
    [byteOf s.er.queue.length, byteOf s.er.drops, byteOf s.cc.record.retag] ++ natBE 2 s.cc.record.unrecorded

/-- STATE page 2: the seen list (R156). -/
def page2 (s : State) : List Byte :=
  [2#8, byteOf s.cc.record.seen.length, byteOf s.cc.record.overflow.toNat] ++
    s.cc.record.seen.flatMap timedTagBytes

/-- The ENTRIES payload of a FETCH (R157, Table 10-8). -/
def entriesPayload (start : Nat) (s : State) : List Byte :=
  let (outcome, entries) := s.hr.read start 2
  let code := match outcome with
    | .inPlace => 0
    | .startMoved => 1
    | .noneYet => 2
  [byteOf code, byteOf entries.length] ++ entries.flatMap entryBytes

/-- The report of one address (R158, Table 10-16). -/
def peerReport (s : State) (address : Nat) : Byte :=
  if address = s.address then byteOf (128 + 16 * s.tu.sync.code + s.cc.record.st.name.code)
  else
    match s.peer address with
    | none => byteOf (16 * 3 + 7)
    | some p =>
      if p.present then
        match p.beacon with
        | some b => byteOf (64 + 16 * b.sync.code + b.capture.code)
        | none => byteOf (64 + 16 * 3 + 7)
      else byteOf (16 * 3 + 7)

/-- The PEER_LIST payload: addresses 1 to 30 in order (R158). -/
def peerListPayload (s : State) : List Byte := (List.range 30).map fun i => s.peerReport (i + 1)

/-- QUERY (R154 to R156). -/
def takeQuery (page : Byte) (s : State) : State :=
  if page = 0#8 then s.placeReply kindState s.page0
  else if page = 1#8 then s.placeReply kindState s.page1
  else if page = 2#8 then s.placeReply kindState s.page2
  else s.placeResult kindQuery .outOfRange

/-- FETCH (R157). -/
def takeFetch (start : Nat) (s : State) : State := s.placeReply kindEntries (s.entriesPayload start)

/-- PEERS (R158). -/
def takePeers (s : State) : State := s.placeReply kindPeerList s.peerListPayload

/-! ## Acting on the capture -/

/-- RELEASE decided against the capture record (R41, R159). -/
def releaseCode (origin serial : Nat) (s : State) : ResultCode :=
  if 30 < origin ∨ (1 ≤ origin ∧ serial = 0) then .outOfRange
  else
    match s.cc.record.st with
    | .off => .wrongState
    | .armed => .wrongState
    | .post _ => .wrongState
    | .frozen cur _ =>
      if origin = 0 then .done
      else if cur.tag = { origin, serial } then .done
      else .tagMismatch

/-- RELEASE: a match is released with reason REQUEST (R41, R42, R159). -/
def takeRelease (toAll : Bool) (origin serial : Nat) (s : State) : State :=
  let code := s.releaseCode origin serial
  let s' := if code = .done then s.release .request else s
  s'.answer toAll kindRelease code

/-- FORCE (R43, R160). -/
def takeForce (s : State) : State :=
  if s.sc.op = .running then
    match s.cc.record.st with
    | .off => s.placeResult kindForce .captureOff
    | .armed => (s.requestTrigger .forced none).placeResult kindForce .done
    | .post _ => s.placeResult kindForce .wrongState
    | .frozen _ _ => s.placeResult kindForce .wrongState
  else s.placeResult kindForce .wrongState

/-! ## Acting on start-up -/

end State

/-- The result code of a section's tests (R161, R175). -/
def SectionResult.code : SectionResult → ResultCode
  | .unknownSection => .unknownSection
  | .outOfRange => .outOfRange
  | .inputsLow _ => .done
  | .inputsHigh _ => .done
  | .analog _ => .done
  | .station _ => .done

/-- An accepted section replaces the one in force and sets its configured mark; a refused one changes nothing (R173,
R175). -/
def StartupController.configure (c : StartupController) : SectionResult → StartupController
  | .unknownSection => c
  | .outOfRange => c
  | .inputsLow x =>
    { c with config := { c.config with inputsLow := x }, configured := { c.configured with inputsLow := true } }
  | .inputsHigh x =>
    { c with config := { c.config with inputsHigh := x }, configured := { c.configured with inputsHigh := true } }
  | .analog x => { c with config := { c.config with analog := x }, configured := { c.configured with analog := true } }
  | .station x =>
    { c with config := { c.config with station := x }, configured := { c.configured with station := true } }

namespace State

/-- CONFIG: decided in SETUP by the tests of R175; in RUNNING SETUP_CLOSED, and ignored when broadcast (R147, R152,
R161). -/
def takeConfig (toAll : Bool) (payload : List Byte) (s : State) : State :=
  if s.sc.op = .setup then
    let result := parseSection payload
    { s with sc := s.sc.configure result }.answer toAll kindConfig result.code
  else if toAll then s
  else s.placeResult kindConfig .setupClosed

/-- SETUP_END: SETUP ends on the request; in RUNNING SETUP_CLOSED, and ignored when broadcast (R147, R162, R170). -/
def takeSetupEnd (toAll : Bool) (levels : BitVec 12) (s : State) : State :=
  if s.sc.op = .setup then (s.enterRunning levels).answer toAll kindSetupEnd .done
  else if toAll then s
  else s.placeResult kindSetupEnd .setupClosed

/-- RESTART: DONE in the slot, and the restart owed mark (R163). -/
def takeRestart (s : State) : State :=
  let s' := s.placeResult kindRestart .done
  { s' with rh := { s'.rh with restartOwed := true } }

/-! ## Taking a request (R147) -/

/-- A request that only an addressed frame brings; ignored when broadcast, for another station, or while a restart is
owed. -/
def takeAddressed (dst : Byte) (take : State → State) (s : State) : State :=
  if dst = s.addressByte ∧ s.rh.restartOwed = false then take s else s

/-- A request that a broadcast brings too; `take` is told whether it was broadcast. -/
def takeEither (dst : Byte) (take : Bool → State → State) (s : State) : State :=
  if s.rh.restartOwed then s
  else if dst = broadcast then take true s
  else if dst = s.addressByte then take false s
  else s

end State

/-- A request frame (Table 10-14). -/
def requestFrame (kind dst : Byte) (payload : List Byte) : Frame := { kind, src := 0#8, dst, payload }

/-- QUERY (R154). -/
def execQuery (dt : Nat) (dst page : Byte) (s : State) : Result :=
  .next ((s.advance dt).receive (requestFrame kindQuery dst [page]) fun _ =>
    State.takeAddressed dst (State.takeQuery page))

/-- FETCH (R157). -/
def execFetch (dt : Nat) (dst : Byte) (start : BitVec 32) (s : State) : Result :=
  .next ((s.advance dt).receive (requestFrame kindFetch dst (natBE 4 start.toNat)) fun _ =>
    State.takeAddressed dst (State.takeFetch start.toNat))

/-- PEERS (R158). -/
def execPeers (dt : Nat) (dst : Byte) (s : State) : Result :=
  .next ((s.advance dt).receive (requestFrame kindPeers dst []) fun _ => State.takeAddressed dst State.takePeers)

/-- RELEASE (R159). -/
def execRelease (dt : Nat) (dst origin serial : Byte) (s : State) : Result :=
  .next ((s.advance dt).receive (requestFrame kindRelease dst [origin, serial]) fun _ =>
    State.takeEither dst fun toAll => State.takeRelease toAll origin.toNat serial.toNat)

/-- FORCE (R160). -/
def execForce (dt : Nat) (dst : Byte) (s : State) : Result :=
  .next ((s.advance dt).receive (requestFrame kindForce dst []) fun _ => State.takeAddressed dst State.takeForce)

/-- CONFIG (R161, R175). -/
def execConfig (dt : Nat) (dst : Byte) (payload : List Byte) (s : State) : Result :=
  .next ((s.advance dt).receive (requestFrame kindConfig dst payload) fun _ =>
    State.takeEither dst fun toAll => State.takeConfig toAll payload)

/-- SETUP_END (R162). -/
def execSetupEnd (dt : Nat) (dst : Byte) (levels : BitVec 12) (s : State) : Result :=
  .next ((s.advance dt).receive (requestFrame kindSetupEnd dst []) fun _ =>
    State.takeEither dst fun toAll => State.takeSetupEnd toAll levels)

/-- RESTART (R163). -/
def execRestart (dt : Nat) (dst : Byte) (s : State) : Result :=
  .next ((s.advance dt).receive (requestFrame kindRestart dst []) fun _ => State.takeAddressed dst State.takeRestart)

end Sys2Proof.Machine
end

