-- ==== Sys2Proof/Machine/Resets.lean ====
section
/-!
DEFINITION. Family: the retaining resets, and where they strike (R15 to R19, R101, R165, R166).
-/

namespace Sys2Proof.Machine

/-- The state a command leads to; where it does not complete, the state it found. -/
def Result.stateOr (s : State) : Result → State
  | .next t => t
  | .fault _ => s
  | .refused _ => s

namespace State

/-- The effect of the step that an `EventStep` stands for. -/
def runStep (s : State) : EventStep → State
  | .resetEnd straps supply starting levels => (execResetEnd straps supply starting .completes levels s).stateOr s
  | .setupWindowExpiry levels => (execSetupWindowExpiry levels s).stateOr s
  | .setupEnd dt dst levels => (execSetupEnd dt dst levels s).stateOr s
  | .inputEdge dt n => (execInputEdge dt n s).stateOr s
  | .qualifyTimeExpiry n => (execQualifyTimeExpiry n s).stateOr s
  | .scanEvaluation dt c => (execScanEvaluation dt c s).stateOr s
  | .beaconReceived dt src dst payload => (execBeaconReceived dt src dst payload s).stateOr s
  | .triggerReceived dt src dst payload => (execTriggerReceived dt src dst payload s).stateOr s
  | .eventReceived dt src dst payload => (execEventReceived dt src dst payload s).stateOr s
  | .otherFrameReceived dt frame => (execOtherFrameReceived dt frame s).stateOr s
  | .supplyFallBelowWarning dt => (execSupplyFallBelowWarning dt s).stateOr s

/-- What a reset finds where it strikes: a step it struck in is done up to the point it struck at (R19, R82, R101). Where
the step has fewer points, the reset strikes before the step. R82 and R101 have a reset strike between the events of one
scan and inside the handling of a local event; that it can strike between the events of any step, and between the writes
of a heard frame, is the model's choice (DESIGN CHOICE, log 7). -/
def struckBy (struck : Struck) (s : State) : State :=
  match struck with
  | .between => s
  | .inFlight => s
  | .inStep step passed =>
    let t := State.runStep { s with cut := some passed } step
    if t.cut.isSome then s else t

/-- A retaining reset begins where `struck` says (R16, R19, R101, R165). That one said to strike inside an operation leaves
the check unequal in every state, also in those that no operation of R15 runs in (a reset held, START-FAULT), is the
model's choice (DESIGN CHOICE, log 7). -/
def beginReset (cause : ResetCause) (struck : Struck) (s : State) : State :=
  (s.struckBy struck).beginRetaining cause (struck == .inFlight)

end State

/-- RESET_SUPPLY_LOW (R165). -/
def execResetSupplyLow (struck : Struck) (s : State) : Result := .next (s.beginReset .supplyLow struck)

/-- RESET_PIN (R165). -/
def execResetPin (struck : Struck) (s : State) : Result := .next (s.beginReset .pin struck)

end Sys2Proof.Machine
end

