-- ==== Sys2Proof/Machine/Outcomes.lean ====
section
/-!
DEFINITION. Family: the end of a transmission, by completion or by collision, and what the item's source does with it
(R28, R29, R94, R96, R105, R131 to R136, R149, R163).
-/

namespace Sys2Proof.Machine

namespace State

/-- The records of the batch in flight leave the queue and the batch ends, adding `drops` to the drop count
(R94, R96). -/
def endBatch (drops : Nat) (s : State) : State :=
  match s.er.batch with
  | none => s
  | some b =>
    { s with er := { s.er with
        queue := s.er.queue.drop b.records, drops := satAdd top8 s.er.drops drops, batch := none } }

/-- The reply's item ends, and an owed restart follows: a retaining reset, which strikes where `struck` says, as every
retaining reset does (R16, R19, R101, R149, R163; log 18). -/
def replyEnded (struck : Struck) (s : State) : State :=
  if s.rh.restartOwed then s.beginReset .restartRequest struck
  else { s with rh := { s.rh with slot := none } }

/-- What a source does with a completion (R28, R94, R105, R149). -/
def sourceCompleted (struck : Struck) (src : Source) (s : State) : State :=
  match src with
  | .trigger => { s with cc := { s.cc with pendingTrigger := none } }
  | .reply => s.replyEnded struck
  | .beacon => { s with tu := { s.tu with beaconPending := false } }
  | .event => s.endBatch 0

/-- The drops an abandoned batch returns: its records and the drop count it carried (R96). -/
def batchLoss (s : State) : Nat :=
  match s.er.batch with
  | none => 0
  | some b => b.records + b.drops

/-- What a source does with an abandonment (R29, R96, R105, R135, R149). -/
def sourceAbandoned (struck : Struck) (src : Source) (s : State) : State :=
  match src with
  | .trigger =>
    match s.cc.pendingTrigger with
    | none => s
    | some t =>
      let s' := { s with cc := { s.cc with pendingTrigger := none } }
      (s'.write (s'.captureDraft .triggerNotSent t .notSent)).1
  | .reply => s.replyEnded struck
  | .beacon => { s with tu := { s.tu with beaconPending := false } }
  | .event => s.endBatch s.batchLoss

/-- The item's new attempt count, or its abandonment at the collision limit (R132, R135). -/
def countAttempt (struck : Struck) (src : Source) (k : Nat) (s : State) : State :=
  if collisionLimit ≤ k then
    { s with lc := { s.lc with
        abandoned := satAdd top16 s.lc.abandoned 1, attempts := s.lc.attempts.put src 0 } }.sourceAbandoned struck src
  else { s with lc := { s.lc with attempts := s.lc.attempts.put src k } }

end State

/-- COLLISION (R132 to R136). -/
def execCollision (dt : Nat) (s : State) (struck : Struck := .between) : Result :=
  let s' := s.advance dt
  match s'.lc.line with
  | .transmitting _ out none =>
    let k := s'.lc.attempts.get out.source + 1
    .next ((s'.collide k).countAttempt struck out.source k)
  | .transmitting _ _ (some k) => .next (s'.collide (k + 1))
  | .quiet => .next s'
  | .receiving _ => .next s'
  | .staged _ _ => .next s'
  | .backoff => .next s'
  | .stuck => .next s'

/-- TRANSMISSION_COMPLETE, at the end of the frame's last symbol (R131, R136). -/
def execTransmissionComplete (s : State) (struck : Struck := .between) : Result :=
  match s.lc.line with
  | .transmitting since out withdrawn =>
    let s1 := (s.advanceTo (since + out.frame.duration)).lineQuiet
    let s2 := { s1 with lc := { s1.lc with line := .quiet } }
    match withdrawn with
    | some _ => .next s2
    | none =>
      .next
        ({ s2 with lc := { s2.lc with attempts := s2.lc.attempts.put out.source 0 } }.sourceCompleted struck out.source)
  | .quiet => .next s
  | .receiving _ => .next s
  | .staged _ _ => .next s
  | .backoff => .next s
  | .stuck => .next s

end Sys2Proof.Machine
end

