-- ==== Sys2Proof/Machine/Dispatch.lean ====
section
/-!
DEFINITION. The dispatch: one arm for each command, each a direct call of its meaning.
-/

namespace Sys2Proof.Machine

/-- The effect of a command on everything but the queue. -/
def exec (i : Instr) (s : State) : Host.Outcome State Fault Refusal :=
  match i with
  | .resetPowerOn => Sys2Proof.Machine.execResetPowerOn s
  | .resetSupplyLow struck => Sys2Proof.Machine.execResetSupplyLow struck s
  | .resetPin struck => Sys2Proof.Machine.execResetPin struck s
  | .resetEnd straps supply starting ending levels => Sys2Proof.Machine.execResetEnd straps supply starting ending levels s
  | .setupWindowExpiry levels => Sys2Proof.Machine.execSetupWindowExpiry levels s
  | .inputEdge dt n => Sys2Proof.Machine.execInputEdge dt n s
  | .qualifyTimeExpiry n => Sys2Proof.Machine.execQualifyTimeExpiry n s
  | .repeatTimerExpiry n => Sys2Proof.Machine.execRepeatTimerExpiry n s
  | .chatterWindowExpiry n => Sys2Proof.Machine.execChatterWindowExpiry n s
  | .restTimerExpiry n => Sys2Proof.Machine.execRestTimerExpiry n s
  | .scanStart => Sys2Proof.Machine.execScanStart s
  | .scanEvaluation dt c => Sys2Proof.Machine.execScanEvaluation dt c s
  | .postTimeExpiry => Sys2Proof.Machine.execPostTimeExpiry s
  | .holdLimitExpiry => Sys2Proof.Machine.execHoldLimitExpiry s
  | .beaconDue => Sys2Proof.Machine.execBeaconDue s
  | .syncTimerExpiry => Sys2Proof.Machine.execSyncTimerExpiry s
  | .timeCountTop => Sys2Proof.Machine.execTimeCountTop s
  | .peerPresenceExpiry peer => Sys2Proof.Machine.execPeerPresenceExpiry peer s
  | .clashWindowExpiry => Sys2Proof.Machine.execClashWindowExpiry s
  | .idleGapMet => Sys2Proof.Machine.execIdleGapMet s
  | .arbiterSelect => Sys2Proof.Machine.execArbiterSelect s
  | .stagingEnd => Sys2Proof.Machine.execStagingEnd s
  | .activityBegins dt => Sys2Proof.Machine.execActivityBegins dt s
  | .collision dt struck => Sys2Proof.Machine.execCollision dt s struck
  | .backoffExpiry => Sys2Proof.Machine.execBackoffExpiry s
  | .transmissionComplete struck => Sys2Proof.Machine.execTransmissionComplete s struck
  | .activityTimeExpiry => Sys2Proof.Machine.execActivityTimeExpiry s
  | .receptionBroken dt how => Sys2Proof.Machine.execReceptionBroken dt how s
  | .beaconReceived dt src dst payload => Sys2Proof.Machine.execBeaconReceived dt src dst payload s
  | .triggerReceived dt src dst payload => Sys2Proof.Machine.execTriggerReceived dt src dst payload s
  | .eventReceived dt src dst payload => Sys2Proof.Machine.execEventReceived dt src dst payload s
  | .clashFrameReceived dt kind dst payload => Sys2Proof.Machine.execClashFrameReceived dt kind dst payload s
  | .otherFrameReceived dt frame => Sys2Proof.Machine.execOtherFrameReceived dt frame s
  | .query dt dst page => Sys2Proof.Machine.execQuery dt dst page s
  | .fetch dt dst start => Sys2Proof.Machine.execFetch dt dst start s
  | .peers dt dst => Sys2Proof.Machine.execPeers dt dst s
  | .release dt dst origin serial => Sys2Proof.Machine.execRelease dt dst origin serial s
  | .force dt dst => Sys2Proof.Machine.execForce dt dst s
  | .config dt dst payload => Sys2Proof.Machine.execConfig dt dst payload s
  | .setupEnd dt dst levels => Sys2Proof.Machine.execSetupEnd dt dst levels s
  | .restart dt dst => Sys2Proof.Machine.execRestart dt dst s
  | .supplyFallBelowWarning dt => Sys2Proof.Machine.execSupplyFallBelowWarning dt s
  | .supplyRiseAboveHysteresis dt => Sys2Proof.Machine.execSupplyRiseAboveHysteresis dt s
  | .supplyDipBelowHysteresis dt => Sys2Proof.Machine.execSupplyDipBelowHysteresis dt s
  | .restoreTimerExpiry => Sys2Proof.Machine.execRestoreTimerExpiry s
  | .lineBecomesQuiet dt => Sys2Proof.Machine.execLineBecomesQuiet dt s
  | .frameStartInstant dt => Sys2Proof.Machine.execFrameStartInstant dt s
  | .supplyBelowRetentionLevel => Sys2Proof.Machine.execSupplyBelowRetentionLevel s

end Sys2Proof.Machine
end

