-- ==== Sys2Proof/WellFormed.lean ====
section
/-!
DEFINITION. Which commands are well formed: the frame a command brings is a valid frame of its row's kind (R138,
Tables 10-2, 10-3, 10-14), and a peer's address is one the peer table has (R113). The meanings do not rely on it: an
ill-formed frame is broken at its end, and an address outside the table has no entry.
-/

namespace Sys2Proof

open Machine

/-- A valid frame of a station or peer, its source 1 to 30. -/
def Frame.fromStation (f : Frame) : Bool := f.src != 0#8 && !f.broken

/-- A frame to every station that has a row of its own: a peer's BEACON, TRIGGER or EVENT, or a service node's
request. -/
def Frame.hasOwnRow (f : Frame) : Bool :=
  f.dst == broadcast &&
    ((f.src != 0#8 && (f.kind == kindBeacon || f.kind == kindTrigger || f.kind == kindEvent)) ||
      (f.src == 0#8 && isRequestKind f.kind))

/-- A request that a service node sends to some station or to all (Table 10-14). -/
def validRequest (kind dst : Byte) (payload : List Byte) : Bool :=
  !Frame.broken { kind, src := 0#8, dst, payload }

/-- The command is one that the station's surroundings can bring. -/
def Instr.wf : Instr → Bool
  | .resetPowerOn => true
  | .resetSupplyLow _ => true
  | .resetPin _ => true
  | .resetEnd _ _ _ _ _ => true
  | .setupWindowExpiry _ => true
  | .inputEdge _ _ => true
  | .qualifyTimeExpiry _ => true
  | .repeatTimerExpiry _ => true
  | .chatterWindowExpiry _ => true
  | .restTimerExpiry _ => true
  | .scanStart => true
  | .scanEvaluation _ _ => true
  | .postTimeExpiry => true
  | .holdLimitExpiry => true
  | .beaconDue => true
  | .syncTimerExpiry => true
  | .timeCountTop => true
  | .peerPresenceExpiry peer => peer != 0#5 && peer != 31#5
  | .clashWindowExpiry => true
  | .idleGapMet => true
  | .arbiterSelect => true
  | .stagingEnd => true
  | .activityBegins _ => true
  | .collision _ _ => true
  | .backoffExpiry => true
  | .transmissionComplete _ => true
  | .activityTimeExpiry => true
  | .receptionBroken _ _ => true
  | .beaconReceived _ src dst payload => Frame.fromStation { kind := kindBeacon, src, dst, payload }
  | .triggerReceived _ src dst payload => Frame.fromStation { kind := kindTrigger, src, dst, payload }
  | .eventReceived _ src dst payload => Frame.fromStation { kind := kindEvent, src, dst, payload }
  | .clashFrameReceived _ kind dst payload => Frame.fromStation { kind, src := 1#8, dst, payload }
  | .otherFrameReceived _ frame => !frame.broken && !frame.hasOwnRow
  | .query _ dst page => validRequest kindQuery dst [page]
  | .fetch _ dst start => validRequest kindFetch dst (natBE 4 start.toNat)
  | .peers _ dst => validRequest kindPeers dst []
  | .release _ dst origin serial => validRequest kindRelease dst [origin, serial]
  | .force _ dst => validRequest kindForce dst []
  | .config _ dst payload => validRequest kindConfig dst payload
  | .setupEnd _ dst _ => validRequest kindSetupEnd dst []
  | .restart _ dst => validRequest kindRestart dst []
  | .supplyFallBelowWarning _ => true
  | .supplyRiseAboveHysteresis _ => true
  | .supplyDipBelowHysteresis _ => true
  | .restoreTimerExpiry => true
  | .lineBecomesQuiet _ => true
  | .frameStartInstant _ => true
  | .supplyBelowRetentionLevel => true

end Sys2Proof
end

