-- ==== Sys2Proof/Safety.lean ====
section
/-!
DEFINITION. What a sound state of the block is (the bounds and relations the rules keep), and when a run keeps time.
-/

namespace Sys2Proof.Machine

/-- The ring as R3 and R5 leave it: the held seqs are consecutive up to next seq, and the entry with seq q sits at
position (q - 1) modulo 512. -/
structure Ring.Sound (r : Ring) : Prop where
  size : r.positions.length = ringSize
  heldMax : r.held ≤ ringSize
  heldBelow : r.held < r.nextSeq
  seqMax : r.nextSeq ≤ seqLimit
  newestAt : r.newest = (r.nextSeq + 510) % ringSize
  entries : ∀ q, r.nextSeq ≤ q + r.held → q < r.nextSeq →
    ∃ d, r.positions[(q - 1) % ringSize]? = some (some { seq := q, body := d })

/-- The router's queue, counts and batch in flight are in their ranges (R87, R92, R96). -/
structure Router.Sound (r : Router) : Prop where
  queueMax : r.queue.length ≤ queueSize
  dropsMax : r.drops ≤ top8
  numberMax : r.batchNumber ≤ top8
  inFlight : ∀ b, r.batch = some b →
    1 ≤ b.number ∧ b.number = r.batchNumber ∧ b.drops ≤ top8 ∧ b.records ≤ batchRecords ∧
      b.records ≤ r.queue.length

/-- The capture record, the serial and the ring as chapter 2 keeps them (R20, R21, R33, R34, R37): post elapsed is present
in POST and FROZEN, frozen elapsed in FROZEN. -/
structure State.CaptureSound (s : State) : Prop where
  countRange : 16 ≤ s.station.postCount ∧ s.station.postCount ≤ 447
  writtenMax : s.cc.record.postWritten ≤ 447
  belowCount : s.sc.op = .running → s.cc.record.st.isPost = true → s.cc.record.postWritten < s.station.postCount
  markHeld : ∀ cur, s.cc.record.st.current = some cur →
    1 ≤ cur.markSeq ∧ cur.markSeq + s.cc.record.postWritten + 1 = s.hr.nextSeq
  noPost : s.sc.op = .setup ∨ s.sc.op = .startFault → s.cc.record.st.isPost = false
  cleared : s.cc.record.st.held = false → { s.cc.record with st := .armed } = CaptureRecord.cleared
  seenMax : s.cc.record.seen.length ≤ seenSize
  seenDistinct : (s.cc.record.seen.map (·.tag)).Nodup
  currentNotSeen : ∀ cur, s.cc.record.st.current = some cur → cur.tag ∉ s.cc.record.seen.map (·.tag)
  retagMax : s.cc.record.retag ≤ top8
  unrecordedMax : s.cc.record.unrecorded ≤ top16
  serialMax : s.cc.serial ≤ top8
  pendingInCapture : s.cc.pendingTrigger.isSome = true → s.cc.record.st.held = true
  pendingRunning : s.cc.pendingTrigger.isSome = true → s.sc.op = .running
  postClock : s.cc.postClock.isSome = s.cc.record.st.held
  frozenClock : s.cc.frozenClock.isSome = s.cc.record.st.isFrozen
  postRuns : s.cc.record.st.isPost = true → s.sc.op = .running → ∃ since, s.cc.postClock = some (.running since)

/-- Each member of the condition set is present exactly while its owner's state says so (R180). -/
structure State.ConditionsSound (s : State) : Prop where
  analog : s.sc.conditions.analogFault = true ↔ s.an.reference ≠ .healthy
  line : s.sc.conditions.lineStuck = true ↔ s.lc.line = .stuck
  clash : s.sc.conditions.addressClash = true ↔ s.pm.clashSince.isSome = true
  supply : s.sc.conditions.supplyWarning = true ↔ s.sc.supply ≠ .normal
  address : s.sc.conditions.startFault = true → s.address = 0 ∨ s.address = 31
  startFault : s.sc.op = .startFault → s.sc.conditions.startFault = true
  working : s.sc.op = .setup ∨ s.sc.op = .running → s.sc.conditions.startFault = false
  held : s.sc.resetHeld = true → s.sc.conditions.startFault = false

/-- The Line Controller's counts, generator and back-off are in their ranges, and a frame staged or being sent has its
item at its source unless the source has ended it (R126 to R136). -/
structure State.LineSound (s : State) : Prop where
  generatorRange : 1 ≤ s.lc.generator ∧ s.lc.generator ≤ 32767
  goodMax : s.lc.good ≤ top16
  brokenMax : s.lc.broken ≤ top16
  collisionsMax : s.lc.collisions ≤ top16
  abandonedMax : s.lc.abandoned ≤ top16
  attemptsMax : ∀ src, s.lc.attempts.get src < collisionLimit
  backoffRuns : s.lc.line = .backoff → s.lc.backoffEnd.isSome = true
  stagedItem : ∀ since out, s.lc.line = .staged since out →
    s.lc.backoffEnd = none ∧ s.holdsItem out.source = true
  sentItem : ∀ since out w, s.lc.line = .transmitting since out w →
    s.lc.backoffEnd = none ∧ (w = none → s.holdsItem out.source = true)

/-- A section list of the lengths chapter 9 gives, every setting as R176 to R178 allow. -/
structure Configuration.Sound (c : Configuration) : Prop where
  low : c.inputsLow.length = 6 ∧ ∀ x ∈ c.inputsLow, x.valid = true
  high : c.inputsHigh.length = 6 ∧ ∀ x ∈ c.inputsHigh, x.valid = true
  channels : c.analog.channels.length = 4 ∧ ∀ x ∈ c.analog.channels, x.valid = true
  interval : c.analog.interval = 0 ∨ c.analog.dither = false ∨ 16 ≤ c.analog.interval
  station : c.station.valid = true

/-- What depends on the operating state: a held reset and a held CAPT belong to STARTING, the setup window to SETUP,
the beacon schedule and the scans to RUNNING (R24, R104, R165, R167, R170, R171); and no step is cut short between
commands (log 7). -/
structure State.StartupSound (s : State) : Prop where
  heldStarts : s.sc.resetHeld = true → s.sc.op = .starting
  captStarts : s.sc.captHeld = true → s.sc.op = .starting
  window : s.sc.setupSince.isSome = true ↔ s.sc.op = .setup
  schedule : s.tu.schedule.isSome = true ↔ s.sc.op = .running
  scans : s.an.nextScan.isSome = true ↔ s.sc.op = .running
  address : s.sc.op = .setup ∨ s.sc.op = .running → 1 ≤ s.address ∧ s.address ≤ 30
  lossReported : s.sc.op = .running → s.sc.historyLost = false
  uncut : s.cut = none

/-- The time count, the tables and the dither generator are in their ranges (R49, R69, R79, R102, R113). -/
structure State.TablesSound (s : State) : Prop where
  timeMax : s.tu.timeCount ≤ timeTop
  inputs : s.iq.length = 12
  channels : s.an.channels.length = 4
  peers : s.pm.peers.length = 30
  ditherRange : 1 ≤ s.an.dither ∧ s.an.dither ≤ 32767
  checkRange : ∀ p, s.an.checkPos = some p → 1 ≤ p ∧ p ≤ checkCycle

/-! ## Keeping time (log 3) -/

/-- The moments at which an input's own timers are due. -/
def State.inputDeadlines (s : State) (n : Nat) : List Nat :=
  let x := s.inputSetting n
  let r := s.input n
  (r.qual.map fun q => q.since + x.qualify * qualifyUnit).toList ++
    (match r.mode with
     | .suspended since => [since + x.chatterRest * second]
     | .normal w rep =>
       (w.map fun w => w.since + chatterSpan).toList ++
         (rep.map fun t => t.since + (t.produced + 1) * x.repeatEvery * second).toList)

/-- The moments at which the line's own timers are due. -/
def State.lineDeadlines (s : State) : List Nat :=
  (match s.lc.line with
   | .quiet => []
   | .receiving _ => []
   | .staged since _ => [since + stagingTime]
   | .transmitting since out _ => [since + out.frame.duration]
   | .backoff => []
   | .stuck => (s.lc.quietSince.map (· + idleGap)).toList) ++
    s.lc.backoffEnd.toList ++
    (if s.lc.line = .stuck then [] else (s.lc.activeSince.map (· + stuckTime)).toList)

/-- The moments at which the other timers of the station are due. -/
def State.blockDeadlines (s : State) : List Nat :=
  (s.sc.setupSince.map (· + setupWindow)).toList ++ s.an.nextScan.toList ++
    (match s.cc.postClock with
     | some (.running since) => if s.cc.record.st.isPost then [since + s.station.postTime * tenMs] else []
     | some (.stopped _) => []
     | none => []) ++
    (match s.cc.frozenClock with
     | some (.running since) => if s.station.holdLimit = 0 then [] else [since + s.station.holdLimit * minute]
     | some (.stopped _) => []
     | none => []) ++
    (s.tu.schedule.map fun p => p.origin + p.taken * s.period + s.beaconOffset).toList ++
    (s.tu.syncSince.map (· + syncPeriods * s.period)).toList ++
    (s.pm.clashSince.map (· + presencePeriods * s.period)).toList ++
    (s.pm.peers.filterMap fun p => if p.present then some (p.lastFrame + presencePeriods * s.period) else none) ++
    (match s.sc.supply with
     | .warning (some since) => [since + restoreTime]
     | .warning none => []
     | .normal => [])

/-- Every moment at which a timer of the station is due. -/
def State.deadlines (s : State) : List Nat :=
  s.blockDeadlines ++ s.lineDeadlines ++ (List.range 12).flatMap s.inputDeadlines

/-- No timer is overdue. A run keeps the station's time when it holds in each of its states: every expiry then comes
as a command before time passes beyond its moment (log 3). -/
def State.onTime (s : State) : Bool := s.deadlines.all fun m => decide (s.tu.elapsed ≤ m)

end Sys2Proof.Machine
end

