-- ==== Sys2Proof/Certificates/Slice0/Obligations.lean ====
section
/-!
DEFINITION. The statements for the provers. Each is one definition under the name Obligations; its docstring names the
rules it states, and what in it is the model's choice.
-/

section

open Sys2Proof Sys2Proof.Machine

/-! ## The machine -/

/-- A step takes the command at the front of the queue: exec on the state with the queue's rest. -/
def Obligations.StepRunsTheFrontCommand : Prop :=
  ∀ (c : Instr) (rest : List Instr) (s : State),
    step { s with pending := c :: rest } = exec c { s with pending := rest }

/-- Every command completes, and leaves the queue as it is. That it does so also where its event cannot have
happened (a stopped timer's expiry, say) is the model's choice, log 4; the queue is the model's own form. -/
def Obligations.EveryCommandCompletesAndLeavesTheQueue : Prop :=
  ∀ (c : Instr) (s : State), ∃ t, exec c s = .next t ∧ t.pending = s.pending

/-- The first state: the ring empty, the record cleared, the serial 0 (R18, R46), every block as its reset table
says (R20, R49, Tables 4-5, 5-3, 6-2, 6-5, 7-2, 8-4, 9-1), both pins inactive. Where the tables read "once the
straps are read", the value is the model's (log 9). -/
def Obligations.FirstStateIsAPowerOnReset : Prop :=
  let s := State.reset
  s.hr.held = 0 ∧ s.hr.newest = 511 ∧ s.hr.nextSeq = 1 ∧ s.hr.check = .matching ∧
  s.cc = { record := { st := .armed, postWritten := 0, retag := 0, seen := [], overflow := false, unrecorded := 0 },
           serial := 0, pendingTrigger := none, postClock := none, frozenClock := none } ∧
  s.iq.length = 12 ∧ (∀ r ∈ s.iq, r = { level := none, qual := none, mode := .normal none none }) ∧
  s.an.reference = .healthy ∧ s.an.checkPos = none ∧ s.an.intervalPos = none ∧ s.an.nextScan = none ∧
  s.an.scan = none ∧ s.an.offset = none ∧ s.an.channels.length = 4 ∧ (∀ x ∈ s.an.channels, x = .normal none none) ∧
  s.er = { queue := [], drops := 0, batch := none, batchNumber := 0 } ∧
  s.tu = { timeCount := 0, elapsed := 0, sync := .free, syncSince := none, schedule := none, beaconPending := false } ∧
  s.pm.peers.length = 30 ∧
  (∀ p ∈ s.pm.peers, p = { present := false, lastFrame := 0, lastBatch := none, beacon := none }) ∧
  s.pm.clashSince = none ∧
  s.lc.line = .quiet ∧ s.lc.backoffEnd = none ∧ s.lc.attempts = ⟨0, 0, 0, 0⟩ ∧ s.lc.quietSince = none ∧
  s.lc.activeSince = none ∧ s.lc.good = 0 ∧ s.lc.broken = 0 ∧ s.lc.collisions = 0 ∧ s.lc.abandoned = 0 ∧
  s.rh = { slot := none, restartOwed := false } ∧
  s.sc.op = .starting ∧ s.sc.cause = .powerOn ∧ s.sc.configured = ⟨false, false, false, false⟩ ∧
  s.sc.setupSince = none ∧ s.sc.historyLost = false ∧ s.sc.supply = .normal ∧ s.capt = false ∧ s.flt = false ∧
  s.frameBuffer = .empty ∧ s.receiveStamp = none ∧ s.pending = []

/-- The time count and the elapsed timer run but while a reset is held; the count holds at its top value, which
TIME_COUNT_TOP reaches (R102, R103). On an empty queue one microsecond passes, unless a reset is held (the model's
choice, log 2). That TIME_COUNT_TOP carries both timers forward to the moment the count reaches its top is the
model's choice, log 3. -/
def Obligations.TimeRunsAndTheCountHoldsAtItsTop : Prop :=
  ((∀ (s : State) (n : Nat), s.sc.resetHeld = false →
    s.advance n = { s with
      tu := { s.tu with elapsed := s.tu.elapsed + n, timeCount := min (s.tu.timeCount + n) timeTop } }) ∧
  (∀ (s : State) (n : Nat), s.sc.resetHeld = true → s.advance n = s) ∧
  (∀ s : State, s.sc.resetHeld = false → s.tu.timeCount ≤ timeTop →
    ∃ t, exec .timeCountTop s = .next t ∧
      t = { s with tu := { s.tu with
        timeCount := timeTop, elapsed := s.tu.elapsed + (timeTop - s.tu.timeCount) } } ∧
      ∀ n, (t.advance n).tu.timeCount = timeTop)) ∧
  (∀ s : State, s.pending = [] →
    (s.sc.resetHeld = false →
      step s = .next { s with
        tu := { s.tu with elapsed := s.tu.elapsed + 1, timeCount := min (s.tu.timeCount + 1) timeTop } }) ∧
    (s.sc.resetHeld = true → step s = .next s))

/-- Between two resets no command moves the time count back or beyond its top value (R102). -/
def Obligations.TimeCountNeverFallsBetweenResets : Prop :=
  ∀ (c : Instr) (s t : State), s.tu.timeCount ≤ timeTop → s.sc.resetHeld = false → exec c s = .next t →
    t.sc.resetHeld = false → s.tu.timeCount ≤ t.tu.timeCount ∧ t.tu.timeCount ≤ timeTop

/-! ## The history ring -/

/-- A write that is taken while sequence numbers are left stores the entry with the next seq at the next position,
and outside POST changes nothing but the ring (R5). -/
def Obligations.PlainWriteStoresTheNextEntry : Prop :=
  ∀ (s : State) (d : Draft), s.hr.Sound → s.sc.op = .running → s.cc.record.st.isFrozen = false →
    s.hr.nextSeq < seqLimit →
    ∃ t, s.write d = (t, .taken s.hr.nextSeq) ∧
      t.hr.nextSeq = s.hr.nextSeq + 1 ∧ t.hr.newest = (s.hr.newest + 1) % 512 ∧
      t.hr.held = min (s.hr.held + 1) 512 ∧ t.hr.check = .matching ∧
      t.hr.positions[t.hr.newest]? = some (some { seq := s.hr.nextSeq, body := d }) ∧
      t.hr.newest = (s.hr.nextSeq - 1) % 512 ∧
      (∀ p, p ≠ t.hr.newest → t.hr.positions[p]? = s.hr.positions[p]?) ∧
      t = { s with hr := t.hr, cc := t.cc } ∧ (s.cc.record.st.isPost = false → t.cc = s.cc)

/-- A write outside RUNNING is refused and changes nothing; one in FROZEN is refused and counts in unrecorded, which
stops at 65535 (R4, R39). A write taken in POST raises post written by 1, and freezes the capture when it reaches
the post count (R37). -/
def Obligations.WritesAreRefusedOrCountTowardsTheFreeze : Prop :=
  ((∀ (s : State) (d : Draft), s.sc.op ≠ .running → s.write d = (s, .notRunning)) ∧
  (∀ (s : State) (d : Draft), s.sc.op = .running → s.cc.record.st.isFrozen = true →
    s.write d =
      ({ s with
          cc := { s.cc with record := { s.cc.record with unrecorded := min (s.cc.record.unrecorded + 1) 65535 } }
          hr := { s.hr with check := .matching } }, .frozen))) ∧
  (∀ (s : State) (d : Draft) (cur : Current), s.sc.op = .running → s.cc.record.st = .post cur →
    s.hr.nextSeq < seqLimit →
    (s.cc.record.postWritten + 1 ≠ s.station.postCount →
      s.write d =
        ({ s with
            hr := s.hr.store d
            cc := { s.cc with record := { s.cc.record with postWritten := s.cc.record.postWritten + 1 } } },
          .taken s.hr.nextSeq)) ∧
    (∀ since, s.cc.record.postWritten + 1 = s.station.postCount → s.cc.postClock = some (.running since) →
      s.write d =
        ({ s with
            hr := s.hr.store d
            cc := { s.cc with
              record := { s.cc.record with
                st := .frozen cur .countReached, postWritten := s.cc.record.postWritten + 1 }
              postClock := some (.stopped (s.tu.elapsed - since))
              frozenClock := some (.running s.tu.elapsed) } },
          .taken s.hr.nextSeq)))

/-- A write taken when the sequence numbers are used up is a sequence restart: the ring then holds SEQUENCE_RESTART
at position 0 and the pending entry at position 1 (R8); a capture in POST is lost and its TRIGGER frame withdrawn, a
record in ARMED or OFF stays (R44). -/
def Obligations.SequenceRestartBeginsTheRingAgain : Prop :=
  ∀ (s : State) (d : Draft), s.hr.positions.length = 512 → s.sc.op = .running →
    s.cc.record.st.isFrozen = false → s.hr.nextSeq = seqLimit →
    ∃ t, s.write d = (t, .taken 2) ∧
      t.hr.held = 2 ∧ t.hr.nextSeq = 3 ∧ t.hr.newest = 1 ∧ t.hr.check = .matching ∧
      t.hr.positions[0]? = some (some { seq := 1, body :=
        { time := s.tu.timeCount, origin := s.address, originSeq := none, kind := .sequenceRestart, subject := none,
          value := none, capture := none, sync := s.tu.sync } }) ∧
      t.hr.positions[1]? = some (some { seq := 2, body := d }) ∧
      t = { s with hr := t.hr, cc := t.cc, lc := t.lc } ∧
      (s.cc.record.st.isPost = true →
        t.cc = { s.cc with
          record := { st := if s.station.capture then .armed else .off, postWritten := 0, retag := 0, seen := [],
                      overflow := false, unrecorded := 0 }
          pendingTrigger := none, postClock := none, frozenClock := none } ∧
        t.lc = if s.cc.pendingTrigger.isSome then s.lc.endItem .trigger else s.lc) ∧
      (s.cc.record.st.isPost = false → t.cc = s.cc ∧ t.lc = s.lc)

/-- A read below the oldest seq starts at the oldest entry with "start moved"; a read of an empty ring or beyond the
newest seq gives "none yet" (R11, R12); a read in between is "in place" (R10). What it returns are the entries held
under consecutive seqs. -/
def Obligations.ReadsReturnHeldEntriesInPlace : Prop :=
  ∀ (r : Ring) (start count : Nat), r.Sound →
    (r.held = 0 ∨ r.newestSeq < start → r.read start count = (.noneYet, [])) ∧
    (∀ first, 0 < r.held → start ≤ r.newestSeq → first = max start r.oldestSeq →
      (r.read start count).1 = (if start < r.oldestSeq then .startMoved else .inPlace) ∧
      (r.read start count).2.map (·.seq) =
        (if count = 2 ∧ first < r.newestSeq then [first, first + 1] else [first]) ∧
      ∀ e ∈ (r.read start count).2, r.positions[(e.seq - 1) % 512]? = some (some e))

/-- Every step keeps the ring as R3 and R5 describe it: the held seqs consecutive, each at position (seq - 1) modulo
512. -/
def Obligations.StepKeepsTheRingSound : Prop :=
  ∀ s t : State, s.hr.Sound → step s = .next t → t.hr.Sound

/-- The invariants hold of the first state. -/
def Obligations.FirstStateIsSound : Prop :=
  State.reset.hr.Sound ∧ State.reset.er.Sound ∧ State.reset.CaptureSound ∧ State.reset.ConditionsSound ∧
    State.reset.LineSound ∧ State.reset.sc.config.Sound ∧ State.reset.StartupSound ∧ State.reset.TablesSound

/-! ## The Event Router -/

/-- A local event is taken in RUNNING alone; it is written when its class is recorded or it opens RUNNING, then
appended to the queue when its class is announced, or counted as a drop when the queue holds 16, and its trigger
request comes last (R85 to R88). Where a reset strikes in its handling, its write is made and its announce and
trigger-request steps are not (R101); where one strikes at the end of its handling, it is handled whole and no event
after it is handed on (R82). That the reset is made to strike there through the field cut is the model's own form,
log 7. -/
def Obligations.LocalEventIsWrittenThenAnnounced : Prop :=
  (∀ (s : State) (e : LocalEvent), s.sc.op ≠ .running → s.emit e = s) ∧
  (∀ (s : State) (e : LocalEvent), s.sc.op = .running → s.cut = none → e.trigger = none →
    ∃ (w : State) (ownSeq : Option Nat),
      (e.opening = true ∨ s.station.recordMask.getLsbD e.kind.class = true →
        w = (s.write { time := e.time, origin := s.address, originSeq := none, kind := e.kind, subject := e.subject,
                       value := e.value, capture := none, sync := s.tu.sync }).1 ∧
        ∀ q, ownSeq = some q ↔
          (s.write { time := e.time, origin := s.address, originSeq := none, kind := e.kind, subject := e.subject,
                     value := e.value, capture := none, sync := s.tu.sync }).2 = .taken q) ∧
      (e.opening = false → s.station.recordMask.getLsbD e.kind.class = false → w = s ∧ ownSeq = none) ∧
      (s.station.announceMask.getLsbD e.kind.class = true → s.er.queue.length < 16 →
        s.emit e = { w with er := { s.er with queue := s.er.queue ++
          [{ time := e.time, kind := e.kind, subject := e.subject, value := e.value, sync := s.tu.sync, ownSeq }] } }) ∧
      (s.station.announceMask.getLsbD e.kind.class = true → 16 ≤ s.er.queue.length →
        s.emit e = { w with er := { s.er with drops := min (s.er.drops + 1) 255 } }) ∧
      (s.station.announceMask.getLsbD e.kind.class = false → s.emit e = w)) ∧
  (∀ (s : State) (e : LocalEvent) (cause : Cause) (time : Option Nat), s.sc.op = .running → s.cut = none →
    e.trigger = some (cause, time) → s.emit e = (s.emit { e with trigger := none }).requestTrigger cause time) ∧
  (∀ (s w : State) (e : LocalEvent), s.sc.op = .running →
    (e.opening = true ∨ s.station.recordMask.getLsbD e.kind.class = true →
      w = (s.write { time := e.time, origin := s.address, originSeq := none, kind := e.kind, subject := e.subject,
                     value := e.value, capture := none, sync := s.tu.sync }).1) →
    (e.opening = false → s.station.recordMask.getLsbD e.kind.class = false → w = s) →
    (s.cut = some 0 →
      s.emit e = { w with sc := { s.sc with op := .starting, historyLost := false }, cut := none }) ∧
    (∀ h : State, s.cut = some 1 → h = State.handleEvent e { s with cut := none } →
      s.emit e = { h with sc := { h.sc with op := .starting, historyLost := false }, cut := none }) ∧
    (∀ n, s.cut = some (n + 2) → s.emit e = State.handleEvent e { s with cut := some n })) ∧
  (∀ (s : State) (e : LocalEvent), s.sc.op = .running → s.cut = none → s.emit e = s.handleEvent e)

/-- A heard EVENT frame writes its GAP, if drops are reported and the heard mask holds STATION, and then the records
whose class the heard mask holds, in frame order; it touches neither the queue nor the drop count, and outside
RUNNING nothing at all (R97 to R100). The repeat test: an EVENT frame with the batch number the peer's entry holds
is discarded whole; any other number becomes the last batch, and the frame goes to the router (R117). Where a reset
strikes between the writes of a frame, those before it are made and those after it are not (R19, R101); that it can
strike there, and the field cut, none but inside a reset's step, by which it does, are the model's choice, log 7. -/
def Obligations.HeardFrameWritesGapThenRecords : Prop :=
  ((∀ (s : State) (src : Nat) (e : EventFields), s.sc.op ≠ .running → s.takeHeard src e = s) ∧
  (∀ (s : State) (src : Nat) (e : EventFields), s.sc.op = .running → s.cut = none →
    s.takeHeard src e =
      (e.records.filter fun d => s.station.heardMask.getLsbD d.kind.class).foldl (fun s d => (s.write d).1)
        (if 0 < e.drops ∧ s.station.heardMask.getLsbD 6 = true then
          (s.write { time := s.tu.timeCount, origin := src, originSeq := none, kind := .gap, subject := none,
                     value := some e.drops, capture := none, sync := s.tu.sync }).1
         else s)) ∧
  (∀ (s : State) (src : Nat) (e : EventFields), (s.takeHeard src e).er = s.er) ∧
  (∀ (s : State) (src made : Nat) (e : EventFields) (ds : List Draft) (t : State), s.sc.op = .running →
    ds = (if 0 < e.drops ∧ s.station.heardMask.getLsbD 6 = true then
        [{ time := s.tu.timeCount, origin := src, originSeq := none, kind := .gap, subject := none,
           value := some e.drops, capture := none, sync := s.tu.sync }]
      else []) ++ e.records.filter (fun d => s.station.heardMask.getLsbD d.kind.class) →
    s.cut = some made → made < ds.length →
    t = (ds.take (made + 1)).foldl (fun s d => (s.write d).1) s →
    s.takeHeard src e = { t with sc := { t.sc with op := .starting, historyLost := false }, cut := none })) ∧
  (∀ (s : State) (a : Nat) (e : EventFields) (p : PeerEntry), 1 ≤ a → s.pm.peers[a - 1]? = some p →
    (p.lastBatch = some e.number → s.takeEvent a e = s) ∧
    (p.lastBatch ≠ some e.number →
      s.takeEvent a e = State.takeHeard a e
        { s with pm := { s.pm with peers := s.pm.peers.set (a - 1) { p with lastBatch := some e.number } } }))

/-- Every step keeps the announcement queue at most 16 long, the counts in their ranges, and the batch in flight
within the queue (R87, R90, R92, R96). -/
def Obligations.StepKeepsTheRouterSound : Prop :=
  ∀ s t : State, s.er.Sound → step s = .next t → t.er.Sound

/-! ## The capture -/

/-- Two tags are the same capture when origins and serials are equal; one is earlier by trigger time, and at equal
times by origin address; tags of equal time and origin are neither (R22). -/
def Obligations.TagsAreOrderedByTimeThenOrigin : Prop :=
  (∀ a b : Tag, a = b ↔ a.origin = b.origin ∧ a.serial = b.serial) ∧
  (∀ a b : TimedTag, a.earlier b = true ↔ a.time < b.time ∨ (a.time = b.time ∧ a.tag.origin < b.tag.origin)) ∧
  (∀ a b : TimedTag, a.time = b.time → a.tag.origin = b.tag.origin →
    a.earlier b = false ∧ b.earlier a = false) ∧
  (∀ a b : TimedTag, a.earlier b = true → b.earlier a = false) ∧
  (∀ a b c : TimedTag, a.earlier b = true → b.earlier c = true → a.earlier c = true)

/-- A local trigger request in ARMED raises the serial, marks the trigger in the ring, enters POST and makes a
TRIGGER frame pending, also where its write is the sequence restart (R8, R26); in the other states it is ignored
(R25). -/
def Obligations.TriggerRequestOriginatesInArmedAlone : Prop :=
  (∀ (s : State) (cause : Cause) (time : Option Nat), s.cc.record.st ≠ .armed → s.requestTrigger cause time = s) ∧
  (∀ (s : State) (cause : Cause) (time : Option Nat) (serial at' seq : Nat) (mark : Draft) (ring : Ring),
    s.sc.op = .running → s.cc.record.st = .armed → s.hr.nextSeq ≤ seqLimit →
    serial = (if s.cc.serial ≥ 255 then 1 else s.cc.serial + 1) → at' = time.getD s.tu.timeCount →
    mark = { time := s.tu.timeCount, origin := s.address, originSeq := none, kind := .triggerMark,
             subject := some s.address, value := some at', capture := some { serial, detail := .marked cause },
             sync := s.tu.sync } →
    (s.hr.nextSeq < seqLimit → ring = s.hr.store mark ∧ seq = s.hr.nextSeq) →
    (s.hr.nextSeq = seqLimit →
      ring = (s.hr.emptied.store
        { time := s.tu.timeCount, origin := s.address, originSeq := none, kind := .sequenceRestart, subject := none,
          value := none, capture := none, sync := s.tu.sync }).store mark ∧ seq = 2) →
    s.requestTrigger cause time = { s with
      hr := ring
      cc :=
        { record :=
            { st := .post { tag := { origin := s.address, serial }, triggerTime := at', cause, markSeq := seq }
              postWritten := 0, retag := 0, seen := [], overflow := false, unrecorded := 0 }
          serial
          pendingTrigger := some { tag := { origin := s.address, serial }, time := at' }
          postClock := some (.running s.tu.elapsed)
          frozenClock := none }
      lc := { s.lc with attempts := { s.lc.attempts with trigger := 0 } } })

/-- A TRIGGER frame's tag is joined in ARMED: the mark is written, also where its write is the sequence restart, and
POST entered, the serial and the pending frame staying as they are. It is compared in POST and FROZEN, ignored in
OFF, and not acted upon outside RUNNING (R30, R31). The capture fields of a beacon: a late join, in the same way, on
a peer in POST, a comparison in POST and FROZEN, and nothing otherwise, nor outside RUNNING; gossip from a frozen
peer makes no station join (R30, R32). -/
def Obligations.PeersAreJoinedInArmedAlone : Prop :=
  ((∀ (s : State) (z : TimedTag), s.sc.op ≠ .running ∨ s.cc.record.st = .off → s.takeTrigger z = s) ∧
  (∀ (s : State) (code : CaptureCode) (tag : Option TimedTag), s.sc.op ≠ .running ∨ s.cc.record.st = .off →
    s.takeGossip code tag = s)) ∧
  (∀ (s : State) (z : TimedTag), s.sc.op = .running → s.cc.record.st.held = true →
    s.takeTrigger z = s.compare z ∧ ∀ code, s.takeGossip code (some z) = s.compare z) ∧
  (∀ s : State, s.sc.op = .running → (∀ code, s.takeGossip code none = s) ∧
    (s.cc.record.st = .armed → ∀ code tag, code ≠ .post → s.takeGossip code tag = s)) ∧
  (∀ (s t : State) (z : TimedTag) (cause : Cause) (seq : Nat) (mark : Draft) (ring : Ring),
    s.sc.op = .running → s.cc.record.st = .armed → s.hr.nextSeq ≤ seqLimit →
    (cause = .peerTrigger ∧ t = s.takeTrigger z) ∨ (cause = .peerBeacon ∧ t = s.takeGossip .post (some z)) →
    mark = { time := s.tu.timeCount, origin := s.address, originSeq := none, kind := .triggerMark,
             subject := some z.tag.origin, value := some z.time,
             capture := some { serial := z.tag.serial, detail := .marked cause }, sync := s.tu.sync } →
    (s.hr.nextSeq < seqLimit → ring = s.hr.store mark ∧ seq = s.hr.nextSeq) →
    (s.hr.nextSeq = seqLimit →
      ring = (s.hr.emptied.store
        { time := s.tu.timeCount, origin := s.address, originSeq := none, kind := .sequenceRestart, subject := none,
          value := none, capture := none, sync := s.tu.sync }).store mark ∧ seq = 2) →
    t = { s with
      hr := ring
      cc := { s.cc with
        record :=
          { st := .post { tag := z.tag, triggerTime := z.time, cause, markSeq := seq }
            postWritten := 0, retag := 0, seen := [], overflow := false, unrecorded := 0 }
        postClock := some (.running s.tu.elapsed)
        frozenClock := none } })

/-- A comparison: the same capture as the current or a seen tag changes nothing; an earlier tag is adopted, the
former one joining the seen list, and withdraws a pending TRIGGER frame; any other tag joins the seen list. A full
list stores nothing but the overflow, and TRIGGER_SEEN is written in POST alone, when a tag was stored (R33, R34,
R35). -/
def Obligations.ComparisonAdoptsTheEarlierTag : Prop :=
  ∀ (s : State) (z : TimedTag) (cur : Current), s.cc.record.st.current = some cur →
    (z.tag = cur.tag ∨ z.tag ∈ s.cc.record.seen.map (·.tag) → s.compare z = s) ∧
    (z.tag ≠ cur.tag → z.tag ∉ s.cc.record.seen.map (·.tag) →
      ∃ w : State,
        (z.earlier { tag := cur.tag, time := cur.triggerTime } = true →
          w = State.withdrawTrigger { s with
            hr := { s.hr with check := .matching }
            cc := { s.cc with record :=
              { st := if s.cc.record.st.isPost = true
                  then .post { cur with tag := z.tag, triggerTime := z.time }
                  else match s.cc.record.st with
                    | .frozen _ reason => .frozen { cur with tag := z.tag, triggerTime := z.time } reason
                    | other => other
                postWritten := s.cc.record.postWritten
                retag := min (s.cc.record.retag + 1) 255
                seen := if s.cc.record.seen.length < 6
                  then s.cc.record.seen ++ [{ tag := cur.tag, time := cur.triggerTime }] else s.cc.record.seen
                overflow := if s.cc.record.seen.length < 6 then s.cc.record.overflow else true
                unrecorded := s.cc.record.unrecorded } } }) ∧
        (z.earlier { tag := cur.tag, time := cur.triggerTime } = false →
          w = { s with
            hr := { s.hr with check := .matching }
            cc := { s.cc with record := { s.cc.record with
              seen := if s.cc.record.seen.length < 6 then s.cc.record.seen ++ [z] else s.cc.record.seen
              overflow := if s.cc.record.seen.length < 6 then s.cc.record.overflow else true } } }) ∧
        s.compare z =
          if s.cc.record.st.isPost = true ∧ s.cc.record.seen.length < 6 then
            (w.write
              { time := w.tu.timeCount, origin := w.address, originSeq := none, kind := .triggerSeen,
                subject := some z.tag.origin, value := some z.time,
                capture := some
                  { serial := z.tag.serial,
                    detail := .seen (z.earlier { tag := cur.tag, time := cur.triggerTime }) },
                sync := w.tu.sync }).1
          else w)

/-- Withdrawal of a pending TRIGGER frame: a staging of it is given up, a transmission of it goes on with no report,
its attempt count is discarded (R28, R136). -/
def Obligations.WithdrawalGivesUpAStagingOnly : Prop :=
  ∀ s : State,
    (s.cc.pendingTrigger = none → s.withdrawTrigger = s) ∧
    (s.cc.pendingTrigger ≠ none → ∃ line,
      s.withdrawTrigger = { s with
        cc := { s.cc with pendingTrigger := none }
        lc := { s.lc with line, attempts := { s.lc.attempts with trigger := 0 } } } ∧
      (∀ since out, s.lc.line = .staged since out → out.source = .trigger → line = .quiet) ∧
      (∀ since out, s.lc.line = .transmitting since out none → out.source = .trigger →
        line = .transmitting since out (some s.lc.attempts.trigger)) ∧
      ((∀ since out, s.lc.line = .staged since out → out.source ≠ .trigger) →
        (∀ since out, s.lc.line = .transmitting since out none → out.source ≠ .trigger) → line = s.lc.line))

/-- Release of a FROZEN capture clears the record to the configured state and, in RUNNING, writes CAPTURE_RELEASED
with the tag, the trigger time, the unrecorded count and the reason, also where that write is the sequence restart
(R8); in SETUP it writes nothing (R42). -/
def Obligations.ReleaseClearsTheRecordAndReportsIt : Prop :=
  ∀ (s : State) (cur : Current) (why : FreezeReason) (reason : ReleaseReason) (w : State) (entry : Draft),
    s.cc.record.st = .frozen cur why →
    w = { s.withdrawTrigger with
      hr := { s.hr with check := .matching }
      cc := { s.cc with
        record := { st := if s.station.capture then .armed else .off, postWritten := 0, retag := 0, seen := [],
                    overflow := false, unrecorded := 0 }
        pendingTrigger := none, postClock := none, frozenClock := none } } →
    entry = { time := s.tu.timeCount, origin := s.address, originSeq := none, kind := .captureReleased,
              subject := some cur.tag.origin, value := some cur.triggerTime,
              capture := some { serial := cur.tag.serial, detail := .released s.cc.record.unrecorded reason },
              sync := s.tu.sync } →
    (s.sc.op = .setup → s.release reason = w) ∧
    (s.sc.op = .running → s.hr.nextSeq < seqLimit → s.release reason = { w with hr := s.hr.store entry }) ∧
    (s.sc.op = .running → s.hr.nextSeq = seqLimit →
      s.release reason = { w with hr := (s.hr.emptied.store
        { time := s.tu.timeCount, origin := s.address, originSeq := none, kind := .sequenceRestart, subject := none,
          value := none, capture := none, sync := s.tu.sync }).store entry })

/-- POST_TIME_EXPIRY freezes a capture in POST with reason TIME_ELAPSED, post written as it is; a capture frozen
already stays as it is (R38). HOLD_LIMIT_EXPIRY releases a FROZEN capture with reason HOLD_LIMIT, at the moment the
limit is reached; with a limit of 0 the capture stays (R40). That POST_TIME_EXPIRY changes nothing in ARMED and OFF
is the model's choice, log 4. How time passes before the command (by its operand dt, or to the moment it is due) is
the model's choice, log 3. -/
def Obligations.CaptureTimersFreezeAndRelease : Prop :=
  ((∀ (s : State) (cur : Current) (since : Nat) (w : State), s.cc.record.st = .post cur →
    s.cc.postClock = some (.running since) → w = s.advanceTo (since + s.station.postTime * 10000) →
    exec .postTimeExpiry s = .next { w with
      hr := { s.hr with check := .matching }
      cc := { s.cc with
        record := { s.cc.record with st := .frozen cur .timeElapsed }
        postClock := some (.stopped (w.tu.elapsed - since))
        frozenClock := some (.running w.tu.elapsed) } }) ∧
  (∀ s : State, s.cc.record.st.isPost = false → exec .postTimeExpiry s = .next s)) ∧
  (∀ (s : State) (cur : Current) (why : FreezeReason) (since : Nat), s.cc.record.st = .frozen cur why →
    s.cc.frozenClock = some (.running since) →
    (s.station.holdLimit = 0 → exec .holdLimitExpiry s = .next s) ∧
    (0 < s.station.holdLimit →
      exec .holdLimitExpiry s =
        .next ((s.advanceTo (since + s.station.holdLimit * 60000000)).release .holdLimit)))

/-- CAPT follows the capture state once the restore has decided the record, and is inactive from the start of a
reset until then (R24). -/
def Obligations.CaptIsActiveWhileACaptureIsHeld : Prop :=
  (∀ s : State, s.sc.captHeld = false →
    (s.capt = true ↔ (∃ cur, s.cc.record.st = .post cur) ∨ ∃ cur why, s.cc.record.st = .frozen cur why)) ∧
  (∀ s : State, s.sc.captHeld = true → s.capt = false) ∧
  (∀ (c : Instr) (s t : State), (c = .resetPowerOn ∨ ∃ struck, c = .resetSupplyLow struck ∨ c = .resetPin struck) →
    exec c s = .next t → t.capt = false)

/-- Every step keeps the capture record sound: the mark stands post written plus one seqs below next seq, post
written stays below the post count in POST, the seen list holds at most 6 distinct tags and never the current one,
post elapsed is present in POST and FROZEN and frozen elapsed in FROZEN, and a TRIGGER frame is pending in a capture
alone (R20, R28, R33, R34, R37). -/
def Obligations.StepKeepsTheCaptureSound : Prop :=
  ∀ s t : State, s.CaptureSound → s.StartupSound → s.hr.Sound → step s = .next t → t.CaptureSound

/-! ## Event inputs -/

/-- INPUT_EDGE on an observed input: with q = 0 the change is qualified at once; otherwise the first edge starts a
qualification with its edge time and the next one, the return, discards it. An input that is not observed shows none
(R48, R51 to R53). QUALIFY_TIME_EXPIRY: the change that held for q is processed with the edge time of its first edge
(R52). How time passes before the command (by its operand dt, or to the moment it is due) is the model's choice, log
3. That a timer's expiry changes nothing where the timer does not run is the model's choice, log 4. -/
def Obligations.EdgesStartAndEndQualifications : Prop :=
  (∀ (s w : State) (dt : Nat) (n : Fin 12) (r : InputRecord), w = s.advance dt → r = s.input n →
    (s.sc.op ≠ .running ∨ (s.inputSetting n).sensitivity = .off → exec (.inputEdge dt n) s = .next w) ∧
    (s.sc.op = .running → (s.inputSetting n).sensitivity ≠ .off → ∀ level, r.level = some level →
      (∀ q, r.qual = some q →
        exec (.inputEdge dt n) s = .next { w with iq := s.iq.set n { r with qual := none } }) ∧
      (r.qual = none → 0 < (s.inputSetting n).qualify →
        exec (.inputEdge dt n) s = .next { w with iq := s.iq.set n { r with
          qual := some { edgeTime := w.tu.timeCount, target := !level, since := w.tu.elapsed } } }) ∧
      (r.qual = none → (s.inputSetting n).qualify = 0 →
        exec (.inputEdge dt n) s = .next (w.qualifiedChange n (!level) w.tu.timeCount)))) ∧
  (∀ (s : State) (n : Fin 12) (q : Qualification), s.sc.op = .running → (s.inputSetting n).sensitivity ≠ .off →
    (s.input n).qual = some q →
    exec (.qualifyTimeExpiry n) s =
      .next ((s.advanceTo (q.since + (s.inputSetting n).qualify * 100)).qualifiedChange n q.target q.edgeTime))

/-- A qualified change in SUSPENDED updates the level, restarts the rest timer and does nothing else (R54, R60). A
qualified change in NORMAL: the repeat timer starts at the active level and stops at the other, the change event
goes out in a sensitive direction, and then the change is counted: the first opens a window, one below the limit
adds to it, and the one that reaches the limit suspends the input with CHATTER_START (R54 to R59). -/
def Obligations.QualifiedChangeIsProcessedByItsMode : Prop :=
  (∀ (s : State) (n edgeTime since : Nat) (level : Bool), (s.input n).mode = .suspended since →
    s.qualifiedChange n level edgeTime =
      { s with iq := s.iq.set n { level := some level, qual := none, mode := .suspended s.tu.elapsed } }) ∧
  (∀ (s : State) (n edgeTime : Nat) (level : Bool) (window : Option ChatterWindow) (old rep : Option RepeatTimer)
    (x : InputSetting) (w : State),
    (s.input n).mode = .normal window old → x = s.inputSetting n →
    rep = (if ((x.sensitivity = .rise ∧ level = true) ∨ (x.sensitivity = .fall ∧ level = false)) ∧ 0 < x.repeatEvery
      then some { since := s.tu.elapsed, produced := 0 } else none) →
    w = (if (x.sensitivity = .rise ∧ level = true) ∨ (x.sensitivity = .fall ∧ level = false) ∨ x.sensitivity = .both
      then State.emit
        { time := edgeTime, kind := if level then .inputRise else .inputFall, subject := some n,
          trigger := if x.trigger then some (.localInput n, some edgeTime) else none }
        { s with iq := s.iq.set n { level := some level, qual := none, mode := .normal window rep } }
      else { s with iq := s.iq.set n { level := some level, qual := none, mode := .normal window rep } }) →
    (x.chatterLimit = 0 → s.qualifiedChange n level edgeTime = w) ∧
    (0 < x.chatterLimit → window = none →
      s.qualifiedChange n level edgeTime = { w with
        iq := s.iq.set n
          { level := some level, qual := none, mode := .normal (some { count := 1, since := s.tu.elapsed }) rep } }) ∧
    (0 < x.chatterLimit → ∀ c, window = some c →
      (c.count + 1 ≠ x.chatterLimit →
        s.qualifiedChange n level edgeTime = { w with
          iq := s.iq.set n
            { level := some level, qual := none,
              mode := .normal (some { count := c.count + 1, since := c.since }) rep } }) ∧
      (c.count + 1 = x.chatterLimit →
        s.qualifiedChange n level edgeTime =
          { (State.emit { time := s.tu.timeCount, kind := .chatterStart, subject := some n,
                          value := some x.chatterLimit } w) with
            iq := s.iq.set n { level := some level, qual := none, mode := .suspended s.tu.elapsed } })))

/-- REPEAT_TIMER_EXPIRY produces INPUT_STILL_ACTIVE with value k × R and the timer goes on; CHATTER_WINDOW_EXPIRY
closes the window silently; REST_TIMER_EXPIRY produces CHATTER_END with the level held and returns to NORMAL (R57,
R58, R61). How time passes before the command (by its operand dt, or to the moment it is due) is the model's choice,
log 3. -/
def Obligations.InputTimersReportPersistenceAndRest : Prop :=
  ∀ (s : State) (n : Fin 12) (x : InputSetting), s.sc.op = .running → x = s.inputSetting n → x.sensitivity ≠ .off →
    (∀ window (rep : RepeatTimer) (w : State), (s.input n).mode = .normal window (some rep) →
      w = s.advanceTo (rep.since + (rep.produced + 1) * x.repeatEvery * 1000000) →
      exec (.repeatTimerExpiry n) s = .next (State.emit
        { time := w.tu.timeCount, kind := .inputStillActive, subject := some n.val,
          value := some ((rep.produced + 1) * x.repeatEvery) }
        { w with iq := s.iq.set n { s.input n with
          mode := .normal window (some { since := rep.since, produced := rep.produced + 1 }) } })) ∧
    (∀ (c : ChatterWindow) rep, (s.input n).mode = .normal (some c) rep →
      exec (.chatterWindowExpiry n) s = .next { s.advanceTo (c.since + 1000000) with
        iq := s.iq.set n { s.input n with mode := .normal none rep } }) ∧
    (∀ since level (w : State), (s.input n).mode = .suspended since → (s.input n).level = some level →
      w = s.advanceTo (since + x.chatterRest * 1000000) →
      exec (.restTimerExpiry n) s = .next
        { (State.emit { time := w.tu.timeCount, kind := .chatterEnd, subject := some n.val,
                        value := some (if level then 1 else 0) } w) with
          iq := s.iq.set n { s.input n with
            mode := .normal none
              (if ((x.sensitivity = .rise ∧ level = true) ∨ (x.sensitivity = .fall ∧ level = false)) ∧
                  0 < x.repeatEvery then
                some { since := w.tu.elapsed, produced := 0 } else none) } })

/-! ## Analog scan -/

/-- SCAN_START: the first scan after entry to RUNNING is the settling scan; each later one is counted, moves the
check position and the interval position on, and draws the offset at position 1 with dither on. The next scan is due
1 ms after this one (R67, R68, R70, R78). How time passes before the command (by its operand dt, or to the moment it
is due) is the model's choice, log 3. -/
def Obligations.ScanStartCountsScansFromTheSecond : Prop :=
  ∀ (s w : State) (due : Nat), s.sc.op = .running → s.an.nextScan = some due → s.an.scan = none →
    w = s.advanceTo due →
    (s.an.settled = false →
      exec .scanStart s = .next { w with an := { s.an with
        nextScan := some (due + 1000), settled := true, scan := some (.settling w.tu.timeCount) } }) ∧
    (s.an.settled = true → ∃ t, exec .scanStart s = .next t ∧ t = { w with an := t.an } ∧
      t.an.nextScan = some (due + 1000) ∧ t.an.settled = true ∧ t.an.scan = some (.counted w.tu.timeCount) ∧
      t.an.channels = s.an.channels ∧ t.an.reference = s.an.reference ∧
      (s.an.checkPos = none → t.an.checkPos = some 1) ∧
      (∀ p, s.an.checkPos = some p → t.an.checkPos = some (if p ≥ 64 then 1 else p + 1)) ∧
      (s.sc.config.analog.interval = 0 →
        t.an.intervalPos = s.an.intervalPos ∧ t.an.offset = s.an.offset ∧ t.an.dither = s.an.dither) ∧
      (∀ pos, 0 < s.sc.config.analog.interval →
        (s.an.intervalPos = none ∧ pos = 1 ∨ ∃ p, s.an.intervalPos = some p ∧
          pos = if p ≥ s.sc.config.analog.interval then 1 else p + 1) →
        t.an.intervalPos = some pos ∧
        (pos ≠ 1 → t.an.offset = s.an.offset ∧ t.an.dither = s.an.dither) ∧
        (pos = 1 → s.sc.config.analog.dither = false → t.an.offset = some 0 ∧ t.an.dither = s.an.dither) ∧
        (pos = 1 → s.sc.config.analog.dither = true →
          t.an.dither = ditherStep s.an.dither ∧ t.an.offset = some (ditherStep s.an.dither % 16))))

/-- The dither generator: twice the content modulo 32768 plus the feedback bit, never 0 and never above 32767, and
no two contents step to the same one (R79); the draws of the station at address 7 are those of section 4.9. The
back-off generator: the content halved plus 16384 times the feedback bit, never 0 and never above 32767, and no two
contents step to the same one (R133). -/
def Obligations.GeneratorsStayInTheirRanges : Prop :=
  ((∀ v : Nat, 1 ≤ v → v ≤ 32767 →
    ditherStep v = 2 * v % 32768 +
      (if (16384 ≤ v ∧ v % 16384 < 8192) ∨ (v < 16384 ∧ 8192 ≤ v % 16384) then 1 else 0) ∧
    1 ≤ ditherStep v ∧ ditherStep v ≤ 32767) ∧
  (∀ u v : Nat, u ≤ 32767 → v ≤ 32767 → ditherStep u = ditherStep v → u = v) ∧
  [1, 2, 3, 4, 5].map (fun n => ditherStep^[n] 2007) = [4014, 8028, 16056, 32113, 31458]) ∧
  ((∀ v : Nat, 1 ≤ v → v ≤ 32767 →
    backoffStep v = v / 2 + 16384 *
      (if (v % 2 = 1 ∧ v / 2 % 2 = 0) ∨ (v % 2 = 0 ∧ v / 2 % 2 = 1) then 1 else 0) ∧
    1 ≤ backoffStep v ∧ backoffStep v ≤ 32767) ∧
  (∀ u v : Nat, u ≤ 32767 → v ≤ 32767 → backoffStep u = backoffStep v → u = v))

/-- SCAN_EVALUATION: a settling scan is discarded whole. A counted scan that is a check scan begins with the
reference result of that scan, which says whether it is a fault scan; any other is one while the reference state is
FAULT. A fault scan evaluates nothing and takes no snapshot; a healthy scan evaluates the channels in order, and at
the snapshot scan the snapshots follow (R68, R71, R73, R78, R80). What a channel hands on: for a transition its
event, with the channel as subject, the reading as value, the time of its run, and the trigger cause its settings
give (R77); at the snapshot scan one ANALOG_SNAPSHOT if it is enabled and snapshot-enabled (R78); nothing if it is
not enabled. How time passes before the command (by its operand dt, or to the moment it is due) is the model's
choice, log 3. -/
def Obligations.ScanEvaluationRunsChannelsThenSnapshots : Prop :=
  (∀ (s w : State) (dt : Nat) (c : Conversions), w = { s.advance dt with an := { s.an with scan := none } } →
    (∀ time, s.an.scan = some (.settling time) → exec (.scanEvaluation dt c) s = .next w) ∧
    (∀ (time : Nat) (v : State) (fault : Bool), s.an.scan = some (.counted time) →
      (s.an.checkPos = some 64 → (v, fault) = w.checkReference time c) →
      (s.an.checkPos ≠ some 64 → v = w ∧ fault = decide (s.an.reference ≠ .healthy)) →
      (fault = true → exec (.scanEvaluation dt c) s = .next v) ∧
      (fault = false → ∀ t : State,
        t = State.evaluateChannel time c.an3.toNat 3 (State.evaluateChannel time c.an2.toNat 2
          (State.evaluateChannel time c.an1.toNat 1 (State.evaluateChannel time c.an0.toNat 0 v))) →
        exec (.scanEvaluation dt c) s = .next
          (if s.sc.config.analog.interval ≠ 0 ∧ s.an.intervalPos ≠ none ∧
              s.an.intervalPos = s.an.offset.map (fun d => s.sc.config.analog.interval - d) then
            State.snapshotChannel time c.an3.toNat 3 (State.snapshotChannel time c.an2.toNat 2
              (State.snapshotChannel time c.an1.toNat 1 (State.snapshotChannel time c.an0.toNat 0 t)))
          else t)))) ∧
  (∀ (s : State) (time reading ch : Nat) (x : ChannelSetting), s.sc.config.analog.channels[ch]? = some x →
    (x.enable = false → s.evaluateChannel time reading ch = s ∧ s.snapshotChannel time reading ch = s) ∧
    (x.enable = true → x.snapshot = false → s.snapshotChannel time reading ch = s) ∧
    (x.enable = true → x.snapshot = true →
      s.snapshotChannel time reading ch =
        s.emit { time, kind := .analogSnapshot, subject := some ch, value := some reading }) ∧
    (∀ (e record : Excursion) (transition : Option Transition), x.enable = true → s.an.channels[ch]? = some e →
      e.evaluate x reading time = (record, transition) →
      (transition = none →
        s.evaluateChannel time reading ch = { s with an := { s.an with channels := s.an.channels.set ch record } }) ∧
      (∀ t trigger, transition = some t →
        (t.kind = .analogHigh → x.triggerHigh = true → trigger = some (.localAnalog ch .high, some t.time)) →
        (t.kind = .analogLow → x.triggerLow = true → trigger = some (.localAnalog ch .low, some t.time)) →
        (t.kind ≠ .analogHigh ∨ x.triggerHigh = false → t.kind ≠ .analogLow ∨ x.triggerLow = false →
          trigger = none) →
        s.evaluateChannel time reading ch =
          State.emit { time := t.time, kind := t.kind, subject := some ch, value := some reading, trigger }
            { s with an := { s.an with channels := s.an.channels.set ch record } })))

/-- The reference check at a check scan: a failing check begins a fault with ANALOG_FAULT naming REFH first, a fault
ends at the third pass in a row with the channels cleared and ANALOG_RECOVERED, and a failing check in a fault
returns the pass count to 0 with no entry (R70, R71, R72, R74). That clearing all four channels is the clearing of
every enabled one is DEDUCED, log 23. -/
def Obligations.ReferenceFaultEndsAfterThreePasses : Prop :=
  ∀ (s : State) (time : Nat) (c : Conversions) (fails : Bool),
    fails = (decide (c.refH.toNat < 4032) || decide (63 < c.refL.toNat)) →
    (s.an.reference = .healthy → fails = false → s.checkReference time c = (s, false)) ∧
    (s.an.reference = .healthy → fails = true →
      s.checkReference time c =
        (State.setCondition .analogFault true (State.emit
          { time, kind := .analogFault, subject := some (if c.refH.toNat < 4032 then 16 else 17),
            value := some (if c.refH.toNat < 4032 then c.refH.toNat else c.refL.toNat) }
          { s with an := { s.an with reference := .fault 0 } }), true)) ∧
    (∀ passes, s.an.reference = .fault passes →
      (fails = true → s.checkReference time c = ({ s with an := { s.an with reference := .fault 0 } }, true)) ∧
      (fails = false → passes < 2 →
        s.checkReference time c = ({ s with an := { s.an with reference := .fault (passes + 1) } }, true)) ∧
      (fails = false → passes = 2 →
        s.checkReference time c =
          (State.setCondition .analogFault false (State.emit { time, kind := .analogRecovered }
            { s with an := { s.an with
              reference := .healthy, channels := List.replicate 4 (.normal none none) } }), false)))

/-- The excursion tables: in NORMAL a reading above H extends the high run and one below L the low run, and the n-th
enters HIGH or LOW (R75); in HIGH and LOW a reading inside the hysteresis holds the state, one beyond it extends the
return run, one beyond the opposite threshold the cross run too, and a complete cross run is taken before a complete
return run (R76). -/
def Obligations.ExcursionFollowsItsRuns : Prop :=
  ∀ (x : ChannelSetting) (r time : Nat), x.valid = true →
    (∀ high low : Option Run,
      (x.low ≤ r → r ≤ x.high → (Excursion.normal high low).evaluate x r time = (.normal none none, none)) ∧
      (∀ run, x.high < r → run = extendRun high time →
        (Excursion.normal high low).evaluate x r time =
          if x.qualifyScans ≤ run.count then (.high none none, some { kind := .analogHigh, time := run.firstTime })
          else (.normal (some run) none, none)) ∧
      (∀ run, r < x.low → run = extendRun low time →
        (Excursion.normal high low).evaluate x r time =
          if x.qualifyScans ≤ run.count then (.low none none, some { kind := .analogLow, time := run.firstTime })
          else (.normal none (some run), none))) ∧
    (∀ (ret cross : Option Run) (back crossed : Run),
      back = extendRun ret time → crossed = extendRun cross time →
      (x.high - x.hysteresis ≤ r → (Excursion.high ret cross).evaluate x r time = (.high none none, none)) ∧
      (x.low ≤ r → r < x.high - x.hysteresis →
        (Excursion.high ret cross).evaluate x r time =
          if x.qualifyScans ≤ back.count then (.normal none none, some { kind := .analogNormal, time := back.firstTime })
          else (.high (some back) none, none)) ∧
      (r < x.low →
        (Excursion.high ret cross).evaluate x r time =
          if x.qualifyScans ≤ crossed.count then (.low none none, some { kind := .analogLow, time := crossed.firstTime })
          else if x.qualifyScans ≤ back.count then
            (.normal none none, some { kind := .analogNormal, time := back.firstTime })
          else (.high (some back) (some crossed), none)) ∧
      (r ≤ x.low + x.hysteresis → (Excursion.low ret cross).evaluate x r time = (.low none none, none)) ∧
      (x.low + x.hysteresis < r → r ≤ x.high →
        (Excursion.low ret cross).evaluate x r time =
          if x.qualifyScans ≤ back.count then (.normal none none, some { kind := .analogNormal, time := back.firstTime })
          else (.low (some back) none, none)) ∧
      (x.high < r →
        (Excursion.low ret cross).evaluate x r time =
          if x.qualifyScans ≤ crossed.count then (.high none none, some { kind := .analogHigh, time := crossed.firstTime })
          else if x.qualifyScans ≤ back.count then
            (.normal none none, some { kind := .analogNormal, time := back.firstTime })
          else (.low (some back) (some crossed), none)))

/-! ## Time agreement and the peer table -/

/-- BEACON_DUE: the beacon falls due at the offset of its period and becomes pending, unless one is pending already;
the schedule goes on to the next period (R104). SYNC_TIMER_EXPIRY: 4 × B after the last qualifying beacon the state
becomes LOST with SYNC_LOST; in FREE and LOST no timer runs (R110). How time passes before the command (by its
operand dt, or to the moment it is due) is the model's choice, log 3. That a timer's expiry changes nothing where
the timer does not run is the model's choice, log 4. -/
def Obligations.TimeUnitTimersFallDue : Prop :=
  (∀ (s w : State) (plan : Schedule), s.sc.op = .running → s.tu.schedule = some plan →
    w = s.advanceTo (plan.origin + plan.taken * (s.station.period * 10000) +
      s.address * (s.station.period * 10000) / 32) →
    (s.tu.beaconPending = false →
      exec .beaconDue s = .next { w with
        tu := { w.tu with schedule := some { plan with taken := plan.taken + 1 }, beaconPending := true }
        lc := { s.lc with attempts := { s.lc.attempts with beacon := 0 } } }) ∧
    (s.tu.beaconPending = true →
      exec .beaconDue s = .next { w with
        tu := { w.tu with schedule := some { plan with taken := plan.taken + 1 } } })) ∧
  ((∀ (s w : State) (since : Nat), s.tu.sync = .synced → s.tu.syncSince = some since →
    w = s.advanceTo (since + 4 * (s.station.period * 10000)) →
    exec .syncTimerExpiry s = .next (State.emit { time := w.tu.timeCount, kind := .syncLost }
      { w with tu := { w.tu with sync := .lost, syncSince := none } })) ∧
  (∀ s : State, s.tu.sync ≠ .synced → exec .syncTimerExpiry s = .next s))

/-- A beacon's offset d against the tolerance: above it the count steps forward by d, held at its top value, with
TIME_STEP carrying the step size; from minus the tolerance up the beacon qualifies, and the state becomes SYNCED
with SYNC_GAINED from FREE or LOST; below it nothing changes (R107 to R110). -/
def Obligations.BeaconStepsTheCountForward : Prop :=
  ∀ (s : State) (sender stamp : Nat), s.tu.timeCount ≤ timeTop →
    (sender + s.station.tolerance < stamp → s.takeBeaconTime sender stamp = s) ∧
    (stamp ≤ sender + s.station.tolerance → sender ≤ stamp + s.station.tolerance →
      s.takeBeaconTime sender stamp = s.gainSync) ∧
    (∀ count (w : State), stamp + s.station.tolerance < sender →
      count = min (s.tu.timeCount + (sender - stamp)) timeTop →
      w = (if s.tu.timeCount < count then State.emit
            { time := count, kind := .timeStep, value := some (count - s.tu.timeCount) }
            { s with tu := { s.tu with timeCount := count } }
          else s) →
      s.takeBeaconTime sender stamp = w.gainSync) ∧
    s.gainSync = (if s.tu.sync = .synced then { s with tu := { s.tu with syncSince := some s.tu.elapsed } }
      else State.emit { time := s.tu.timeCount, kind := .syncGained }
        { s with tu := { s.tu with sync := .synced, syncSince := some s.tu.elapsed } })

/-- A valid frame from a peer restarts its since-last-frame; an absent peer becomes present with PEER_SEEN (R114). A
beacon then replaces the beacon part (R115). PEER_PRESENCE_EXPIRY: 8 × B after its last frame a present peer becomes
absent, its last batch and beacon part with it, and PEER_LOST goes out; an absent peer stays as it is (R116). How
time passes before the command (by its operand dt, or to the moment it is due) is the model's choice, log 3. That a
timer's expiry changes nothing where the timer does not run is the model's choice, log 4. -/
def Obligations.PresenceFollowsThePeersFrames : Prop :=
  (∀ (s : State) (a : Nat) (p : PeerEntry), 1 ≤ a → s.pm.peers[a - 1]? = some p →
    (p.present = true →
      s.peerHeard a = { s with pm := { s.pm with
        peers := s.pm.peers.set (a - 1) { p with lastFrame := s.tu.elapsed } } }) ∧
    (p.present = false →
      s.peerHeard a = State.emit { time := s.tu.timeCount, kind := .peerSeen, subject := some a }
        { s with pm := { s.pm with
          peers := s.pm.peers.set (a - 1) { p with present := true, lastFrame := s.tu.elapsed } } }) ∧
    (∀ b : BeaconFields,
      s.noteBeacon a b = { s with pm := { s.pm with
        peers := s.pm.peers.set (a - 1) { p with beacon := some { sync := b.sync, capture := b.capture } } } })) ∧
  (∀ (s : State) (a : BitVec 5) (p : PeerEntry), a ≠ 0#5 → s.pm.peers[a.toNat - 1]? = some p →
    (p.present = false → exec (.peerPresenceExpiry a) s = .next s) ∧
    (∀ w : State, p.present = true → w = s.advanceTo (p.lastFrame + 8 * (s.station.period * 10000)) →
      exec (.peerPresenceExpiry a) s = .next
        (State.emit { time := w.tu.timeCount, kind := .peerLost, subject := some a.toNat }
          { w with
            pm := { s.pm with
              peers := s.pm.peers.set (a.toNat - 1)
                { present := false, lastFrame := p.lastFrame, lastBatch := none, beacon := none } } })))

/-- A clash frame restarts the clash window and, where the condition was clear, sets it with ADDRESS_CLASH; 8 × B
later CLASH_WINDOW_EXPIRY clears it with ADDRESS_CLASH_END (R118, R119). The frame reaches no other block. How time
passes before the command (by its operand dt, or to the moment it is due) is the model's choice, log 3. -/
def Obligations.ClashFrameSetsTheConditionForEightPeriods : Prop :=
  (∀ (s w : State) (dt stamp : Nat) (kind dst : Byte) (payload : List Byte),
    s.lc.line = .receiving (some stamp) → Frame.broken { kind, src := s.addressByte, dst, payload } = false →
    w = State.acceptReception (s.advance dt) →
    (s.sc.conditions.addressClash = true →
      exec (.clashFrameReceived dt kind dst payload) s =
        .next { w with pm := { s.pm with clashSince := some w.tu.elapsed } }) ∧
    (s.sc.conditions.addressClash = false →
      exec (.clashFrameReceived dt kind dst payload) s =
        .next (State.emit { time := w.tu.timeCount, kind := .addressClash }
          { w with
            pm := { s.pm with clashSince := some w.tu.elapsed }
            sc := { s.sc with conditions := { s.sc.conditions with addressClash := true } } }))) ∧
  (∀ (s w : State) (since : Nat), s.pm.clashSince = some since →
    w = s.advanceTo (since + 8 * (s.station.period * 10000)) →
    exec .clashWindowExpiry s = .next (State.emit { time := w.tu.timeCount, kind := .addressClashEnd }
      { w with
        pm := { s.pm with clashSince := none }
        sc := { s.sc with conditions := { s.sc.conditions with addressClash := false } } }))

/-- Every step keeps each member of the condition set present exactly while its owner's state says so; FLT is active
exactly while a member is present (R180). -/
def Obligations.StepKeepsConditionsWithTheirOwners : Prop :=
  (∀ s t : State, s.ConditionsSound → s.StartupSound → step s = .next t → t.ConditionsSound) ∧
  (∀ s : State, s.flt = true ↔
    s.sc.conditions.startFault = true ∨ s.sc.conditions.analogFault = true ∨ s.sc.conditions.lineStuck = true ∨
      s.sc.conditions.addressClash = true ∨ s.sc.conditions.supplyWarning = true)

/-! ## Line access -/

/-- ARBITER_SELECT: in QUIET, with no back-off and the idle gap met, it stages the item of the highest priority,
TRIGGER before reply before BEACON before EVENT; in SETUP the reply alone is eligible. Otherwise nothing is chosen
(R128). -/
def Obligations.ArbiterStagesTheHighestPriority : Prop :=
  ∀ (s : State) (since : Nat),
    (s.lc.line ≠ .quiet ∨ s.lc.backoffEnd ≠ none ∨ s.lc.quietSince = none ∨ s.sc.op = .starting ∨
        s.sc.op = .startFault → exec .arbiterSelect s = .next s) ∧
    (s.lc.line = .quiet → s.lc.backoffEnd = none → s.lc.quietSince = some since → since + 16 ≤ s.tu.elapsed →
      (s.sc.op = .running → s.cc.pendingTrigger ≠ none → exec .arbiterSelect s = .next (s.stage .trigger)) ∧
      (s.sc.op = .running ∧ s.cc.pendingTrigger = none ∨ s.sc.op = .setup → s.rh.slot ≠ none →
        exec .arbiterSelect s = .next (s.stage .reply)) ∧
      (s.sc.op = .running → s.cc.pendingTrigger = none → s.rh.slot = none → s.tu.beaconPending = true →
        exec .arbiterSelect s = .next (s.stage .beacon)) ∧
      (s.sc.op = .running → s.cc.pendingTrigger = none → s.rh.slot = none → s.tu.beaconPending = false →
        s.er.batch ≠ none ∨ s.er.queue ≠ [] ∨ 0 < s.er.drops → exec .arbiterSelect s = .next (s.stage .event)) ∧
      (s.sc.op = .setup → s.rh.slot = none → exec .arbiterSelect s = .next s) ∧
      (s.sc.op = .running → s.cc.pendingTrigger = none → s.rh.slot = none → s.tu.beaconPending = false →
        s.er.batch = none → s.er.queue = [] → s.er.drops = 0 → exec .arbiterSelect s = .next s)) ∧
    (∀ from', s.lc.quietSince = some from' → s.tu.elapsed < from' + 16 → exec .arbiterSelect s = .next s)

/-- Staging builds the frame from the item as it stands: TRIGGER from its tag and time, the reply as built, the
beacon with the sync state and capture fields of this moment and the sender time still open (R36, R106, R129). The
EVENT source forms a batch of up to 3 records with the drop count and the next number when none is in flight, and
stages a batch in flight again unchanged; the frame carries the batch's number, drop count and records (R92, R93,
R95). -/
def Obligations.StagingBuildsTheFrameFromItsItem : Prop :=
  (∀ s : State,
    (∀ t, s.cc.pendingTrigger = some t →
      s.stage .trigger = { s with
        lc := { s.lc with
          line := .staged s.tu.elapsed
            { source := .trigger
              frame :=
                { kind := 0x12#8, src := s.addressByte, dst := 31#8
                  payload := [BitVec.ofNat 8 t.tag.origin, BitVec.ofNat 8 t.tag.serial] ++ natBE 6 t.time } } } }) ∧
    (∀ f, s.rh.slot = some f →
      s.stage .reply = { s with lc := { s.lc with line := .staged s.tu.elapsed { source := .reply, frame := f } } }) ∧
    (s.stage .beacon = { s with
      lc := { s.lc with
        line := .staged s.tu.elapsed
          { source := .beacon
            frame :=
              { kind := 0x11#8, src := s.addressByte, dst := 31#8
                payload := beaconPayload
                  { sender := 0, sync := s.tu.sync, capture := s.cc.record.st.name
                    tag := s.cc.record.st.current.map fun c => { tag := c.tag, time := c.triggerTime } } } } } })) ∧
  (∀ (s : State) (er : Router) (number drops n : Nat),
    (∀ b, s.er.batch = some b → number = b.number ∧ drops = b.drops ∧ n = b.records ∧ er = s.er) →
    (s.er.batch = none →
      number = (if s.er.batchNumber ≥ 255 then 1 else s.er.batchNumber + 1) ∧ drops = s.er.drops ∧
      n = min 3 s.er.queue.length ∧
      er = { queue := s.er.queue, drops := 0, batchNumber := number, batch := some { number, drops, records := n } }) →
    s.stage .event = { s with
      er
      lc := { s.lc with
        line := .staged s.tu.elapsed
          { source := .event
            frame :=
              { kind := 0x13#8, src := s.addressByte, dst := 31#8
                payload :=
                  [BitVec.ofNat 8 number, BitVec.ofNat 8 drops, BitVec.ofNat 8 (s.er.queue.take n).length] ++
                  (s.er.queue.take n).flatMap fun q => recordBytes
                    { time := q.time, origin := s.address, originSeq := q.ownSeq, kind := q.kind
                      subject := q.subject, value := q.value, capture := none, sync := q.sync } } } } })

/-- The line's own moments. ACTIVITY_BEGINS after a quiet line begins a reception in QUIET, BACKOFF and STAGED,
where the staged frame is given up with its item, its attempt count and the collision count as they are; STUCK
begins none (R130, R137, R142). LINE_BECOMES_QUIET starts the quiet time (R123). STAGING_END after 1 µs starts the
transmission; FRAME_START_INSTANT takes the receive stamp of a reception and inserts the sender time into a beacon
being sent, 12 µs into it, and leaves any other frame being sent as it is (R106, R124, R129, R131, R137). How time
passes before the command (by its operand dt, or to the moment it is due) is the model's choice, log 3. That
LINE_BECOMES_QUIET in RECEIVING leaves the end of the reception to RECEPTION_BROKEN, the line state staying
RECEIVING until then, is DEDUCED, log 14. -/
def Obligations.LineMomentsBeginReceptionsAndStampFrames : Prop :=
  (∀ (s w : State) (dt : Nat), w = s.advance dt →
    (s.sc.op = .setup ∨ s.sc.op = .running → s.lc.activeSince = none →
      (s.lc.line = .quiet ∨ s.lc.line = .backoff ∨ (∃ since out, s.lc.line = .staged since out) →
        exec (.activityBegins dt) s = .next { w with lc := { s.lc with
          line := .receiving none, activeSince := some w.tu.elapsed, quietSince := none } }) ∧
      (s.lc.line = .stuck →
        exec (.activityBegins dt) s = .next { w with lc := { s.lc with
          activeSince := some w.tu.elapsed, quietSince := none } })) ∧
    (s.sc.op = .starting ∨ s.sc.op = .startFault → exec (.activityBegins dt) s = .next w) ∧
    (∀ since, s.lc.activeSince = some since → s.lc.quietSince = none →
      exec (.lineBecomesQuiet dt) s = .next { w with lc := { s.lc with
        activeSince := none, quietSince := some w.tu.elapsed } })) ∧
  ((∀ (s w : State) (since : Nat) (out : Outgoing), s.lc.line = .staged since out → w = s.advanceTo (since + 1) →
    exec .stagingEnd s = .next { w with lc := { s.lc with
      line := .transmitting w.tu.elapsed out none, activeSince := some w.tu.elapsed, quietSince := none } }) ∧
  (∀ (s w : State) (dt : Nat), w = s.advance dt → s.lc.line = .receiving none →
    exec (.frameStartInstant dt) s = .next { w with lc := { s.lc with line := .receiving (some w.tu.timeCount) } }) ∧
  (∀ (s w : State) (dt since : Nat) (f : Frame) (k : Option Nat) (source : Source),
    s.lc.line = .transmitting since { source, frame := f } k → w = (s.advance dt).advanceTo (since + 12) →
    (source = .beacon →
      exec (.frameStartInstant dt) s = .next { w with lc := { s.lc with
        line := .transmitting since
          { source := .beacon, frame := { f with payload := natBE 6 w.tu.timeCount ++ f.payload.drop 6 } } k } }) ∧
    (source ≠ .beacon → exec (.frameStartInstant dt) s = .next w)))

/-- A collision below the limit: the attempt and collision counts rise, a back-off of the drawn number of slots
starts, the line state becomes BACKOFF, and the item stays at its source (R132, R133). A collision of a frame whose
item its source has ended counts in the collision count and starts a back-off by the attempt count the item would
have had, and nothing is abandoned or reported (R136). How time passes before the command (by its operand dt, or to
the moment it is due) is the model's choice, log 3. -/
def Obligations.CollisionStartsADrawnBackoff : Prop :=
  (∀ (s w : State) (dt since k : Nat) (out : Outgoing) (struck : Struck), s.lc.line = .transmitting since out none →
    s.lc.backoffEnd = none → w = s.advance dt → k = s.lc.attempts.get out.source + 1 → k < 12 →
    exec (.collision dt struck) s = .next { w with lc := { s.lc with
      line := .backoff
      attempts := s.lc.attempts.put out.source k
      collisions := min (s.lc.collisions + 1) 65535
      generator := backoffStep s.lc.generator
      backoffEnd := some (w.tu.elapsed + backoffStep s.lc.generator % 2 ^ min k 5 * 32) } }) ∧
  (∀ (s w : State) (dt since k : Nat) (out : Outgoing) (struck : Struck), s.lc.line = .transmitting since out (some k) →
    s.lc.backoffEnd = none → w = s.advance dt →
    exec (.collision dt struck) s = .next { w with lc := { s.lc with
      line := .backoff
      collisions := min (s.lc.collisions + 1) 65535
      generator := backoffStep s.lc.generator
      backoffEnd := some (w.tu.elapsed + backoffStep s.lc.generator % 2 ^ min (k + 1) 5 * 32) } })

/-- The twelfth collision abandons the item and reports it to its source: TRIGGER_NOT_SENT, the beacon dropped, the
batch's records and drops back in the drop count, the reply out of the slot, followed by an owed restart (R29, R96,
R105, R135, R149, R163). How time passes before the command (by its operand dt, or to the moment it is due) is the
model's choice, log 3. That an owed restart's reset begins inside this command and stays held until a RESET_END of
its own is DEDUCED, log 18; the operand that says where it strikes is the model's form, logs 7 and 18. -/
def Obligations.TwelfthCollisionAbandonsTheItem : Prop :=
  ∀ (s w : State) (dt since : Nat) (out : Outgoing) (struck : Struck), s.lc.line = .transmitting since out none →
    s.lc.backoffEnd = none → s.lc.attempts.get out.source = 11 →
    w = { s.advance dt with lc := { s.lc with
      line := .backoff
      attempts := s.lc.attempts.put out.source 0
      collisions := min (s.lc.collisions + 1) 65535
      abandoned := min (s.lc.abandoned + 1) 65535
      generator := backoffStep s.lc.generator
      backoffEnd := some ((s.advance dt).tu.elapsed + backoffStep s.lc.generator % 32 * 32) } } →
    (∀ t, out.source = .trigger → s.cc.pendingTrigger = some t →
      exec (.collision dt struck) s = .next (State.write
        { time := w.tu.timeCount, origin := s.address, originSeq := none, kind := .triggerNotSent,
          subject := some t.tag.origin, value := some t.time,
          capture := some { serial := t.tag.serial, detail := .notSent }, sync := s.tu.sync }
        { w with cc := { s.cc with pendingTrigger := none } }).1) ∧
    (out.source = .beacon →
      exec (.collision dt struck) s = .next { w with tu := { w.tu with beaconPending := false } }) ∧
    (∀ b, out.source = .event → s.er.batch = some b →
      exec (.collision dt struck) s = .next { w with er := { s.er with
        queue := s.er.queue.drop b.records, drops := min (s.er.drops + (b.records + b.drops)) 255, batch := none } }) ∧
    (out.source = .reply → s.rh.restartOwed = false →
      exec (.collision dt struck) s = .next { w with rh := { s.rh with slot := none } }) ∧
    (out.source = .reply → s.rh.restartOwed = true →
      exec (.collision dt struck) s = .next (w.beginReset .restartRequest struck))

/-- BACKOFF_EXPIRY ends the back-off: BACKOFF becomes QUIET, a reception goes on (R134). IDLE_GAP_MET recovers a
stuck line: LINE_STUCK is cleared and LINE_RECOVERED goes out; any other line state stays as it is (R123, R142). How
time passes before the command (by its operand dt, or to the moment it is due) is the model's choice, log 3. -/
def Obligations.BackoffAndIdleGapFreeTheLine : Prop :=
  (∀ (s : State) (e : Nat), s.lc.backoffEnd = some e →
    exec .backoffExpiry s = .next { s.advanceTo e with lc := { s.lc with
      backoffEnd := none, line := if s.lc.line = .backoff then .quiet else s.lc.line } }) ∧
  (∀ (s w : State) (since : Nat), s.lc.quietSince = some since → w = s.advanceTo (since + 16) →
    (s.lc.line ≠ .stuck → exec .idleGapMet s = .next w) ∧
    (s.lc.line = .stuck →
      exec .idleGapMet s = .next (State.emit { time := w.tu.timeCount, kind := .lineRecovered }
        { w with
          lc := { s.lc with line := if s.lc.backoffEnd = none then .quiet else .backoff, activeSince := none }
          sc := { s.sc with conditions := { s.sc.conditions with lineStuck := false } } })))

/-- TRANSMISSION_COMPLETE at the end of the frame: the line state becomes QUIET, the quiet time runs from then, and
the source takes the completion: the TRIGGER frame is done, the beacon ends, the batch's records leave the queue,
the slot empties and an owed restart follows. An item its source has ended is not reported (R28, R94, R105, R131,
R136, R149, R163). How time passes before the command (by its operand dt, or to the moment it is due) is the model's
choice, log 3. That an owed restart's reset begins inside this command and stays held until a RESET_END of its own
is DEDUCED, log 18; the operand that says where it strikes is the model's form, logs 7 and 18. -/
def Obligations.CompletionEndsTheItemAtItsSource : Prop :=
  ∀ (s w : State) (since : Nat) (out : Outgoing) (k : Option Nat) (struck : Struck),
    s.lc.line = .transmitting since out k →
    s.lc.quietSince = none →
    w = { s.advanceTo (since + (40 + 4 * out.frame.payload.length)) with lc := { s.lc with
      line := .quiet
      activeSince := none
      quietSince := some (s.advanceTo (since + (40 + 4 * out.frame.payload.length))).tu.elapsed
      attempts := if k = none then s.lc.attempts.put out.source 0 else s.lc.attempts } } →
    (∀ attempts, k = some attempts → exec (.transmissionComplete struck) s = .next w) ∧
    (k = none → out.source = .trigger →
      exec (.transmissionComplete struck) s = .next { w with cc := { s.cc with pendingTrigger := none } }) ∧
    (k = none → out.source = .beacon →
      exec (.transmissionComplete struck) s = .next { w with tu := { w.tu with beaconPending := false } }) ∧
    (∀ b, k = none → out.source = .event → s.er.batch = some b → s.er.drops ≤ 255 →
      exec (.transmissionComplete struck) s = .next { w with er := { s.er with
        queue := s.er.queue.drop b.records, batch := none } }) ∧
    (k = none → out.source = .reply → s.rh.restartOwed = false →
      exec (.transmissionComplete struck) s = .next { w with rh := { s.rh with slot := none } }) ∧
    (k = none → out.source = .reply → s.rh.restartOwed = true →
      exec (.transmissionComplete struck) s = .next (w.beginReset .restartRequest struck))

/-- ACTIVITY_TIME_EXPIRY after 1 ms of activity: a reception is broken, the line state becomes STUCK, LINE_STUCK is
set and the event goes out (R141). It applies in QUIET too, after a collision or the receiver's coming on (R143;
DEDUCED, log 15). How time passes before the command (by its operand dt, or to the moment it is due) is the model's
choice, log 3. -/
def Obligations.MillisecondOfActivitySticksTheLine : Prop :=
  ∀ (s w : State) (since : Nat), s.lc.activeSince = some since → w = s.advanceTo (since + 1000) →
    (∀ stamp, s.lc.line = .receiving stamp →
      exec .activityTimeExpiry s = .next (State.emit { time := w.tu.timeCount, kind := .lineStuck }
        { w with
          lc := { s.lc with line := .stuck, broken := min (s.lc.broken + 1) 65535 }
          sc := { s.sc with conditions := { s.sc.conditions with lineStuck := true } } })) ∧
    (s.lc.line = .backoff ∨ s.lc.line = .quiet →
      exec .activityTimeExpiry s = .next (State.emit { time := w.tu.timeCount, kind := .lineStuck }
        { w with
          lc := { s.lc with line := .stuck }
          sc := { s.sc with conditions := { s.sc.conditions with lineStuck := true } } }))

/-- A reception that ends without a valid frame raises the broken count and frees the buffer, and no block learns of
it: RECEPTION_BROKEN, and any frame that R138 calls broken (R137, R138, R144). The quiet time starts where the line
became quiet; where the reception ended at a delimiter, the activity time runs on (R141). What is heard is a valid
frame only where both delimiters have their patterns, no violation symbol stands before the start delimiter, and the
symbols between are those of a frame, with its length and its check, that R138 does not call broken: it calls broken
a payload above 64, a source above 30, a destination 0, and a length that Table 10-3 does not give the kind, a kind
not listed there being untested (R138, R184, R185). The buffer is empty, or holds one frame being received, staged
or sent (R126). A valid frame ends its reception: the good count rises, the line state returns to QUIET, or to
BACKOFF while a back-off runs, and the activity time of a line still active starts from 0 again (R138, R140, R141,
R144). How time passes before the command (by its operand dt, or to the moment it is due) is the model's choice, log
3. That a frame no FRAME_START_INSTANT preceded is broken is DEDUCED, log 17; that preamble bits off their pattern
do not break a frame is DEDUCED, log 34. That a frame command which brings an ill-formed frame ends its reception as
broken is DEDUCED, log 31. -/
def Obligations.ReceptionsEndBrokenOrValid : Prop :=
  (∀ (s w : State) (dt : Nat) (stamp : Option Nat), s.lc.line = .receiving stamp →
    w = { s.advance dt with lc := { s.lc with
      broken := min (s.lc.broken + 1) 65535
      line := if s.lc.backoffEnd = none then .quiet else .backoff } } →
    (s.lc.quietSince = none →
      exec (.receptionBroken dt .becameQuiet) s = .next { w with lc := { w.lc with
        activeSince := none, quietSince := some w.tu.elapsed } }) ∧
    (∀ heard : Heard, stamp = none ∨ heard.frame = none →
      exec (.receptionBroken dt (.atDelimiter heard)) s = .next w) ∧
    (∀ frame : Frame, frame.broken = true ∨ stamp = none → exec (.otherFrameReceived dt frame) s = .next w) ∧
    (∀ src dst payload,
      (Frame.broken { kind := kindBeacon, src, dst, payload } = true ∨ stamp = none →
        exec (.beaconReceived dt src dst payload) s = .next w) ∧
      (Frame.broken { kind := kindTrigger, src, dst, payload } = true ∨ stamp = none →
        exec (.triggerReceived dt src dst payload) s = .next w) ∧
      (Frame.broken { kind := kindEvent, src, dst, payload } = true ∨ stamp = none →
        exec (.eventReceived dt src dst payload) s = .next w)) ∧
    (∀ kind dst payload, Frame.broken { kind, src := s.addressByte, dst, payload } = true ∨ stamp = none →
      exec (.clashFrameReceived dt kind dst payload) s = .next w) ∧
    (∀ dst payload, dst = 0#8 ∨ payload = [] ∨ 64 < payload.length ∨ stamp = none →
      exec (.config dt dst payload) s = .next w) ∧
    (∀ dst, dst = 0#8 ∨ stamp = none →
      (∀ page, exec (.query dt dst page) s = .next w) ∧ (∀ start, exec (.fetch dt dst start) s = .next w) ∧
      exec (.peers dt dst) s = .next w ∧ (∀ origin serial, exec (.release dt dst origin serial) s = .next w) ∧
      exec (.force dt dst) s = .next w ∧ (∀ levels, exec (.setupEnd dt dst levels) s = .next w) ∧
      exec (.restart dt dst) s = .next w)) ∧
  (∀ (heard : Heard) (f : Frame), heard.frame = some f ↔
    heard.start = startDelimiter ∧ heard.finish = endDelimiter ∧ .vHigh ∉ heard.lead ∧ .vLow ∉ heard.lead ∧
      frameOfSymbols heard.content = some f) ∧
  ((∀ (content : List Symbol) (f : Frame), frameOfSymbols content = some f ↔
    f.broken = false ∧ content = byteSymbols f.content) ∧
  (∀ (f : Frame) (n : Nat), n = f.payload.length → (f.broken = true ↔
    64 < n ∨ 30 < f.src.toNat ∨ f.dst = 0#8 ∨
    (f.kind = 0x11#8 ∧ n ∉ [8, 16]) ∨ (f.kind = 0x12#8 ∧ n ≠ 8) ∨ (f.kind = 0x13#8 ∧ n ∉ [3, 23, 43, 63]) ∨
    (f.kind = 0x21#8 ∧ n ≠ 1) ∨ (f.kind = 0x22#8 ∧ n ≠ 4) ∨ (f.kind = 0x24#8 ∧ n ≠ 2) ∨
    (f.kind ∈ [0x23#8, 0x25#8, 0x27#8, 0x28#8] ∧ n ≠ 0) ∨ (f.kind = 0x26#8 ∧ n = 0) ∨
    (f.kind = 0x31#8 ∧ n ∉ [30, 25, 3, 11, 19, 27, 35, 43, 51]) ∨ (f.kind = 0x32#8 ∧ n ∉ [2, 26, 50]) ∨
    (f.kind = 0x33#8 ∧ n ≠ 30) ∨ (f.kind = 0x34#8 ∧ n ≠ 2)))) ∧
  (∀ s : State,
    (s.lc.line = .quiet ∨ s.lc.line = .backoff ∨ s.lc.line = .stuck → s.frameBuffer = .empty) ∧
    (∀ stamp, s.lc.line = .receiving stamp → s.frameBuffer = .receiving) ∧
    (∀ since out, s.lc.line = .staged since out → s.frameBuffer = .staged out) ∧
    (∀ since out k, s.lc.line = .transmitting since out k → s.frameBuffer = .sent out)) ∧
  (∀ s : State,
    s.acceptReception = { s with lc := { s.lc with
      good := min (s.lc.good + 1) 65535
      line := if s.lc.backoffEnd = none then .quiet else .backoff
      activeSince := s.lc.activeSince.map fun _ => s.tu.elapsed } })

/-- Every step keeps the line counts and the generators in their ranges, every attempt count below the limit, and
every frame staged or being sent with its item at its source (R126 to R136, R144). -/
def Obligations.StepKeepsTheLineSound : Prop :=
  ∀ s t : State, s.LineSound → step s = .next t → t.LineSound

/-! ## Frames from peers -/

/-- Dispatch of a peer's frames (R139, Table 7-4): presence first, whatever the destination; a BEACON to the own
address or to all then goes to the Peer Monitor, the Time Unit and the Capture Controller, a TRIGGER to the Capture
Controller, an EVENT to the repeat test; one that R188 refuses goes no further. How time passes before the command
(by its operand dt, or to the moment it is due) is the model's choice, log 3. That a frame from source 0 under
OTHER_FRAME_RECEIVED goes no further, whatever its kind and destination, is DEDUCED, log 24. That a destination
above 31 is another station's is DEDUCED, log 35. -/
def Obligations.PeerFramesReachTheirBlocksInOrder : Prop :=
  ∀ (s w : State) (dt stamp : Nat) (src dst : Byte) (payload : List Byte), s.lc.line = .receiving (some stamp) →
    src ≠ 0#8 → src ≠ s.addressByte → w = State.peerHeard src.toNat (State.acceptReception (s.advance dt)) →
    (Frame.broken { kind := kindBeacon, src, dst, payload } = false →
      (dst ≠ s.addressByte → dst ≠ 31#8 → exec (.beaconReceived dt src dst payload) s = .next w) ∧
      (dst = s.addressByte ∨ dst = 31#8 →
        (parseBeacon payload = none → exec (.beaconReceived dt src dst payload) s = .next w) ∧
        (∀ b, parseBeacon payload = some b →
          exec (.beaconReceived dt src dst payload) s =
            .next (((w.noteBeacon src.toNat b).takeBeaconTime b.sender stamp).takeGossip b.capture b.tag)))) ∧
    (Frame.broken { kind := kindTrigger, src, dst, payload } = false →
      (dst ≠ s.addressByte → dst ≠ 31#8 → exec (.triggerReceived dt src dst payload) s = .next w) ∧
      (dst = s.addressByte ∨ dst = 31#8 →
        (parseTrigger payload = none → exec (.triggerReceived dt src dst payload) s = .next w) ∧
        (∀ z, parseTrigger payload = some z →
          exec (.triggerReceived dt src dst payload) s = .next (w.takeTrigger z)))) ∧
    (Frame.broken { kind := kindEvent, src, dst, payload } = false →
      (dst ≠ s.addressByte → dst ≠ 31#8 → exec (.eventReceived dt src dst payload) s = .next w) ∧
      (dst = s.addressByte ∨ dst = 31#8 →
        (parseEvent src.toNat payload = none → exec (.eventReceived dt src dst payload) s = .next w) ∧
        (∀ e, parseEvent src.toNat payload = some e →
          exec (.eventReceived dt src dst payload) s = .next (w.takeEvent src.toNat e)))) ∧
    (∀ kind, Frame.broken { kind, src, dst, payload } = false →
      kind ≠ kindBeacon ∧ kind ≠ kindTrigger ∧ kind ≠ kindEvent ∨ dst ≠ s.addressByte ∧ dst ≠ 31#8 →
      exec (.otherFrameReceived dt { kind, src, dst, payload }) s = .next w) ∧
    (∀ kind, Frame.broken { kind, src := 0#8, dst, payload } = false → s.addressByte ≠ 0#8 →
      exec (.otherFrameReceived dt { kind, src := 0#8, dst, payload }) s =
        .next (State.acceptReception (s.advance dt)))

/-! ## Service requests -/

/-- An addressed QUERY, FETCH or PEERS places its reply in the slot as a fresh item, a former reply leaving it
unsent; it changes nothing else. Broadcast, for another station or while a restart is owed, it is ignored (R147,
R150, R153 to R158). An ENTRIES reply carries the outcome of a read of two entries, their count, and each entry with
its seq and its fields (R157, R186, R187, Tables 10-7, 10-8, 10-12); a PEER_LIST reply carries for each address its
presence and the sync and capture states known of it (R158, Table 10-16). The codes of kinds, causes, sync and
capture states are those of Tables 10-9, 10-13, 10-7 and 10-16. How time passes before the command (by its operand
dt, or to the moment it is due) is the model's choice, log 3. That a destination above 31 is another station's is
DEDUCED, log 35. -/
def Obligations.ReadingRequestsPlaceTheirReplies : Prop :=
  (∀ (s w : State) (dt stamp : Nat) (dst page : Byte) (start : BitVec 32), s.lc.line = .receiving (some stamp) →
    dst ≠ 0#8 → w = State.acceptReception (s.advance dt) →
    (dst ≠ s.addressByte ∨ s.rh.restartOwed = true →
      exec (.query dt dst page) s = .next w ∧ exec (.fetch dt dst start) s = .next w ∧
        exec (.peers dt dst) s = .next w) ∧
    (dst = s.addressByte → s.rh.restartOwed = false →
      exec (.query dt dst page) s = .next
        (if page = 0#8 then w.placeReply kindState w.page0 else if page = 1#8 then w.placeReply kindState w.page1
         else if page = 2#8 then w.placeReply kindState w.page2
         else w.placeReply kindResult [0x21#8, 3#8]) ∧
      exec (.fetch dt dst start) s = .next (w.placeReply kindEntries (w.entriesPayload start.toNat)) ∧
      exec (.peers dt dst) s = .next (w.placeReply kindPeerList ((List.range 30).map fun i => w.peerReport (i + 1)))) ∧
    (∀ (v : State) kind payload, v.lc.line = .quiet ∨ v.lc.line = .backoff →
      v.placeReply kind payload = { v with
        rh := { v.rh with slot := some { kind, src := v.addressByte, dst := 31#8, payload } }
        lc := { v.lc with attempts := { v.lc.attempts with reply := 0 } } })) ∧
  ((∀ (s : State) (start : Nat) (outcome : ReadOutcome) (entries : List Entry),
    s.hr.read start 2 = (outcome, entries) →
    s.entriesPayload start =
      [match outcome with | .inPlace => 0#8 | .startMoved => 1#8 | .noneYet => 2#8,
        BitVec.ofNat 8 entries.length] ++
      entries.flatMap fun e => natBE 4 e.seq ++ recordBytes e.body) ∧
  (∀ d : Draft, d.origin ≤ 30 →
    recordBytes d = natBE 6 d.time ++
      [BitVec.ofNat 8 ((if d.originSeq = none then 0 else 128) + (if d.value = none then 0 else 64) +
          (if d.subject = none then 0 else 32) + d.origin),
        BitVec.ofNat 8 (32 * d.kind.class + d.kind.number), BitVec.ofNat 8 (d.subject.getD 0),
        match d.sync with | .free => 0#8 | .synced => 1#8 | .lost => 2#8] ++
      natBE 6 (d.value.getD 0) ++
      match d.capture with
      | none => natBE 4 (d.originSeq.getD 0)
      | some { serial, detail := .marked cause } => [BitVec.ofNat 8 serial, BitVec.ofNat 8 cause.code, 0#8, 0#8]
      | some { serial, detail := .seen adopted } => [BitVec.ofNat 8 serial, if adopted then 1#8 else 0#8, 0#8, 0#8]
      | some { serial, detail := .notSent } => [BitVec.ofNat 8 serial, 0#8, 0#8, 0#8]
      | some { serial, detail := .released unrecorded .request } => [BitVec.ofNat 8 serial, 0#8] ++ natBE 2 unrecorded
      | some { serial, detail := .released unrecorded .holdLimit } =>
        [BitVec.ofNat 8 serial, 1#8] ++ natBE 2 unrecorded) ∧
  (([Kind.inputRise, .inputFall, .inputStillActive, .chatterStart, .chatterEnd].map fun k => (k.class, k.number)) =
      [(0, 0), (0, 1), (1, 0), (2, 0), (2, 1)] ∧
    ([Kind.analogHigh, .analogLow, .analogNormal, .analogSnapshot, .timeStep, .syncGained, .syncLost].map
      fun k => (k.class, k.number)) = [(3, 0), (3, 1), (3, 2), (4, 0), (5, 0), (5, 1), (5, 2)] ∧
    ([Kind.stationStart, .peersPresent, .historyLost, .sequenceRestart, .gap, .analogFault, .analogRecovered,
      .lineStuck, .lineRecovered, .addressClash, .addressClashEnd, .supplyWarning, .supplyRestored, .peerSeen,
      .peerLost].map fun k => (k.class, k.number)) = (List.range 15).map (fun n => (6, n)) ∧
    ([Kind.triggerMark, .triggerSeen, .triggerNotSent, .captureReleased].map fun k => (k.class, k.number)) =
      [(7, 0), (7, 1), (7, 2), (7, 3)] ∧
    (∀ n ch, (Cause.localInput n).code = n ∧ (Cause.localAnalog ch .high).code = 0x10 + ch ∧
      (Cause.localAnalog ch .low).code = 0x14 + ch) ∧
    [Cause.forced, .supplyWarning, .peerTrigger, .peerBeacon].map Cause.code = [0x20, 0x21, 0x22, 0x23] ∧
    [SyncState.free, .synced, .lost].map SyncState.code = [0, 1, 2] ∧
    [CaptureCode.off, .armed, .post, .frozen].map CaptureCode.code = [0, 1, 2, 3]) ∧
  (∀ (s : State) (a : Nat), 1 ≤ a → a ≤ 30 →
    (a = s.address → (s.peerReport a).toNat = 128 + 16 * s.tu.sync.code + s.cc.record.st.name.code) ∧
    (∀ p, a ≠ s.address → s.pm.peers[a - 1]? = some p →
      (∀ b, p.present = true → p.beacon = some b →
        (s.peerReport a).toNat = 64 + 16 * b.sync.code + b.capture.code) ∧
      (p.present = true → p.beacon = none → (s.peerReport a).toNat = 64 + 16 * 3 + 7) ∧
      (p.present = false → (s.peerReport a).toNat = 16 * 3 + 7))))

/-- What the STATE pages carry stands where Table 10-15 puts it, and their lengths are those of Table 10-3 (R154 to
R156, R189). The codes are the figures of Tables 10-13 and 10-15 and section 10.4. -/
def Obligations.StatePagesCarryTheirFigures : Prop :=
  ([OperatingState.setup, .running].map OperatingState.code = [2, 3] ∧
    [ResetCause.powerOn, .supplyLow, .pin, .restartRequest].map ResetCause.code = [0, 1, 2, 3] ∧
    [SyncState.free, .synced, .lost].map SyncState.code = [0, 1, 2] ∧
    [FreezeReason.countReached, .timeElapsed, .cutShort].map FreezeReason.code = [1, 2, 3] ∧
    (∀ cur why, [CaptureState.off, .armed, .post cur, .frozen cur why].map (fun st => st.name.code) = [0, 1, 2, 3]) ∧
    (∀ n ch, (Cause.localInput n).code = n ∧ (Cause.localAnalog ch .high).code = 0x10 + ch ∧
      (Cause.localAnalog ch .low).code = 0x14 + ch) ∧
    [Cause.forced, .supplyWarning, .peerTrigger, .peerBeacon].map Cause.code = [0x20, 0x21, 0x22, 0x23] ∧
    (∀ c : Conditions, c.code =
      (if c.startFault then 1 else 0) + (if c.analogFault then 2 else 0) + (if c.lineStuck then 4 else 0) +
        (if c.addressClash then 8 else 0) + (if c.supplyWarning then 16 else 0)) ∧
    (∀ t : TimedTag,
      timedTagBytes t = [BitVec.ofNat 8 t.tag.origin, BitVec.ofNat 8 t.tag.serial] ++ natBE 6 t.time)) ∧
  ∀ s : State, s.tu.timeCount ≤ timeTop → s.hr.Sound → s.LineSound → s.er.Sound →
    s.CaptureSound →
    s.page0.length = 30 ∧ s.page1.length = 25 ∧ s.page2.length = 3 + 8 * s.cc.record.seen.length ∧
    byteAt s.page0 0 = 0 ∧ byteAt s.page0 1 = s.address ∧ byteAt s.page0 2 = 0x16 ∧ byteAt s.page0 3 = 1 ∧
    byteAt s.page0 4 = s.sc.op.code ∧ byteAt s.page0 5 = s.sc.cause.code ∧ byteAt s.page0 6 = s.tu.sync.code ∧
    fieldAt s.page0 7 6 = s.tu.timeCount ∧ byteAt s.page0 13 = s.cc.record.st.name.code ∧
    fieldAt s.page0 27 2 = s.cc.record.postWritten ∧
    (s.cc.record.st.current = none → slice s.page0 14 13 = List.replicate 13 0#8) ∧
    (∀ cur, s.cc.record.st.current = some cur → slice s.page0 14 13 =
      [BitVec.ofNat 8 cur.tag.origin, BitVec.ofNat 8 cur.tag.serial] ++ natBE 6 cur.triggerTime ++
        [BitVec.ofNat 8 cur.cause.code] ++ natBE 4 cur.markSeq) ∧
    (s.cc.record.st.isFrozen = false → byteAt s.page0 29 = 0) ∧
    (∀ cur why, s.cc.record.st = .frozen cur why → byteAt s.page0 29 = why.code) ∧
    byteAt s.page1 0 = 1 ∧ fieldAt s.page1 1 4 = s.hr.oldestSeq ∧ fieldAt s.page1 5 4 = s.hr.newestSeq ∧
    fieldAt s.page1 9 2 = s.hr.held ∧ byteAt s.page1 11 = s.sc.conditions.code ∧
    fieldAt s.page1 12 2 = s.lc.good ∧ fieldAt s.page1 14 2 = s.lc.broken ∧
    fieldAt s.page1 16 2 = s.lc.collisions ∧ fieldAt s.page1 18 2 = s.lc.abandoned ∧
    byteAt s.page1 20 = s.er.queue.length ∧ byteAt s.page1 21 = s.er.drops ∧
    byteAt s.page1 22 = s.cc.record.retag ∧ fieldAt s.page1 23 2 = s.cc.record.unrecorded ∧
    byteAt s.page2 0 = 2 ∧ byteAt s.page2 1 = s.cc.record.seen.length ∧
    byteAt s.page2 2 = s.cc.record.overflow.toNat ∧ s.page2.drop 3 = s.cc.record.seen.flatMap timedTagBytes

/-- RELEASE: a FROZEN capture is released when the request names any capture or the current tag, else TAG_MISMATCH;
in the other states WRONG_STATE; a tag no capture can have is OUT_OF_RANGE. Broadcast it acts alike, with no reply,
and the slot is emptied (R41, R151, R159). How time passes before the command (by its operand dt, or to the moment
it is due) is the model's choice, log 3. -/
def Obligations.ReleaseIsDecidedAgainstTheRecord : Prop :=
  ∀ (s w v : State) (dt stamp : Nat) (dst origin serial : Byte) (code : Byte),
    s.lc.line = .receiving (some stamp) → dst = s.addressByte ∧ dst ≠ 0#8 ∧ dst ≠ 31#8 ∨ dst = 31#8 →
    s.rh.restartOwed = false → w = State.acceptReception (s.advance dt) →
    (30 < origin.toNat ∨ (1 ≤ origin.toNat ∧ serial = 0#8) → code = 3#8 ∧ v = w) →
    (origin = 0#8 ∨ (1 ≤ origin.toNat ∧ origin.toNat ≤ 30 ∧ serial ≠ 0#8) →
      (s.cc.record.st.isFrozen = false → code = 1#8 ∧ v = w) ∧
      (∀ cur why, s.cc.record.st = .frozen cur why →
        (origin = 0#8 ∨ cur.tag = { origin := origin.toNat, serial := serial.toNat } →
          code = 0#8 ∧ v = w.release .request) ∧
        (origin ≠ 0#8 → cur.tag ≠ { origin := origin.toNat, serial := serial.toNat } → code = 2#8 ∧ v = w))) →
    (dst = 31#8 → exec (.release dt dst origin serial) s = .next v.endReply) ∧
    (dst ≠ 31#8 → exec (.release dt dst origin serial) s = .next (v.placeReply kindResult [0x24#8, code]))

/-- FORCE, addressed: in RUNNING it originates a capture from ARMED with cause FORCED and is answered DONE,
WRONG_STATE in POST and FROZEN, CAPTURE_OFF in OFF; in SETUP WRONG_STATE. Broadcast it is ignored (R43, R160). How
time passes before the command (by its operand dt, or to the moment it is due) is the model's choice, log 3. That a
destination above 31 is another station's is DEDUCED, log 35. -/
def Obligations.ForceOriginatesFromArmed : Prop :=
  ∀ (s w : State) (dt stamp : Nat) (dst : Byte), s.lc.line = .receiving (some stamp) → dst ≠ 0#8 →
    s.rh.restartOwed = false → w = State.acceptReception (s.advance dt) →
    (dst ≠ s.addressByte → exec (.force dt dst) s = .next w) ∧
    (dst = s.addressByte →
      (s.sc.op = .running → s.cc.record.st = .armed →
        exec (.force dt dst) s = .next
          ((w.requestTrigger .forced none).placeReply kindResult [0x25#8, 0#8])) ∧
      (s.sc.op = .running → s.cc.record.st.held = true →
        exec (.force dt dst) s = .next (w.placeReply kindResult [0x25#8, 1#8])) ∧
      (s.sc.op = .running → s.cc.record.st = .off →
        exec (.force dt dst) s = .next (w.placeReply kindResult [0x25#8, 6#8])) ∧
      (s.sc.op = .setup → exec (.force dt dst) s = .next (w.placeReply kindResult [0x25#8, 1#8])))

/-- CONFIG in SETUP: the tests of R175 in their order, and an accepted section replaces the one in force whole and
sets its mark; a refused one changes nothing. In RUNNING SETUP_CLOSED. Broadcast it acts in SETUP without a reply
and is ignored in RUNNING (R147, R161, R173, R175). What the bytes of a section give as its settings, and which of
them are accepted, is as Tables 10-17 to 10-19 and R176 to R178 have it. How time passes before the command (by its
operand dt, or to the moment it is due) is the model's choice, log 3. -/
def Obligations.ConfigReplacesItsSectionWhole : Prop :=
  (∀ (s w v : State) (dt stamp : Nat) (dst : Byte) (payload : List Byte) (code : Byte),
    s.lc.line = .receiving (some stamp) → dst = s.addressByte ∧ dst ≠ 0#8 ∧ dst ≠ 31#8 ∨ dst = 31#8 →
    1 ≤ payload.length → payload.length ≤ 64 → s.rh.restartOwed = false →
    w = State.acceptReception (s.advance dt) →
    (byteAt payload 0 = 0 ∨ 5 ≤ byteAt payload 0 → code = 4#8 ∧ v = w) →
    (byteAt payload 0 = 1 → (∀ x, payload.length = 31 → parseInputs (payload.drop 1) = some x →
        code = 0#8 ∧ v = { w with sc := { s.sc with
          config := { s.sc.config with inputsLow := x }, configured := { s.sc.configured with inputsLow := true } } }) ∧
      (payload.length ≠ 31 ∨ parseInputs (payload.drop 1) = none → code = 3#8 ∧ v = w)) →
    (byteAt payload 0 = 2 → (∀ x, payload.length = 31 → parseInputs (payload.drop 1) = some x →
        code = 0#8 ∧ v = { w with sc := { s.sc with
          config := { s.sc.config with inputsHigh := x }, configured := { s.sc.configured with inputsHigh := true } } }) ∧
      (payload.length ≠ 31 ∨ parseInputs (payload.drop 1) = none → code = 3#8 ∧ v = w)) →
    (byteAt payload 0 = 3 → (∀ x, payload.length = 32 → parseAnalog (payload.drop 1) = some x →
        code = 0#8 ∧ v = { w with sc := { s.sc with
          config := { s.sc.config with analog := x }, configured := { s.sc.configured with analog := true } } }) ∧
      (payload.length ≠ 32 ∨ parseAnalog (payload.drop 1) = none → code = 3#8 ∧ v = w)) →
    (byteAt payload 0 = 4 → (∀ x, payload.length = 12 → parseStation (payload.drop 1) = some x →
        code = 0#8 ∧ v = { w with sc := { s.sc with
          config := { s.sc.config with station := x }, configured := { s.sc.configured with station := true } } }) ∧
      (payload.length ≠ 12 ∨ parseStation (payload.drop 1) = none → code = 3#8 ∧ v = w)) →
    (s.sc.op = .setup → dst = 31#8 → exec (.config dt dst payload) s = .next v.endReply) ∧
    (s.sc.op = .setup → dst ≠ 31#8 →
      exec (.config dt dst payload) s = .next (v.placeReply kindResult [0x26#8, code])) ∧
    (s.sc.op = .running → dst = 31#8 → exec (.config dt dst payload) s = .next w) ∧
    (s.sc.op = .running → dst ≠ 31#8 →
      exec (.config dt dst payload) s = .next (w.placeReply kindResult [0x26#8, 5#8]))) ∧
  (∀ (body : List Byte) (xs : List InputSetting), parseInputs body = some xs ↔ xs.length = 6 ∧
    ∀ (i flags : Nat) (x : InputSetting), i < 6 → flags = byteAt body (5 * i) → xs[i]? = some x →
      x.trigger = decide (128 ≤ flags) ∧
      (flags % 128 = 0 ∧ x.sensitivity = .off ∨ flags % 128 = 1 ∧ x.sensitivity = .rise ∨
        flags % 128 = 2 ∧ x.sensitivity = .fall ∨ flags % 128 = 3 ∧ x.sensitivity = .both) ∧
      x.qualify = byteAt body (5 * i + 1) ∧ x.repeatEvery = byteAt body (5 * i + 2) ∧
      x.chatterLimit = byteAt body (5 * i + 3) ∧ x.chatterRest = byteAt body (5 * i + 4) ∧
      (x.repeatEvery = 0 ∨ x.sensitivity = .rise ∨ x.sensitivity = .fall) ∧
      (x.chatterLimit = 0 ∨ 4 ≤ x.chatterLimit ∧ x.chatterLimit ≤ 60) ∧
      1 ≤ x.chatterRest ∧ x.chatterRest ≤ 15) ∧
  (∀ (body : List Byte) (a : AnalogSection), parseAnalog body = some a ↔ a.channels.length = 4 ∧
    (∀ (i flags : Nat) (x : ChannelSetting), i < 4 → flags = byteAt body (7 * i) → a.channels[i]? = some x →
      flags < 16 ∧ x.enable = decide (flags % 2 = 1) ∧ x.triggerHigh = decide (flags / 2 % 2 = 1) ∧
      x.triggerLow = decide (flags / 4 % 2 = 1) ∧ x.snapshot = decide (flags / 8 % 2 = 1) ∧
      x.high = fieldAt body (7 * i + 1) 2 ∧ x.low = fieldAt body (7 * i + 3) 2 ∧
      x.hysteresis = byteAt body (7 * i + 5) ∧ x.qualifyScans = byteAt body (7 * i + 6) ∧
      x.high ≤ 4095 ∧ x.low < x.high ∧ x.hysteresis < x.high - x.low ∧ 1 ≤ x.qualifyScans ∧ x.qualifyScans ≤ 16) ∧
    a.interval = fieldAt body 28 2 ∧ byteAt body 30 ≤ 1 ∧ a.dither = decide (byteAt body 30 = 1) ∧
    (a.interval = 0 ∨ a.dither = false ∨ 16 ≤ a.interval)) ∧
  (∀ (body : List Byte) (x : StationSection), parseStation body = some x ↔
    byteAt body 0 ≤ 1 ∧ x.capture = decide (byteAt body 0 = 1) ∧
    x.postCount = fieldAt body 1 2 ∧ 16 ≤ x.postCount ∧ x.postCount ≤ 447 ∧
    x.postTime = fieldAt body 3 2 ∧ 1 ≤ x.postTime ∧ x.postTime ≤ 6000 ∧ x.holdLimit = byteAt body 5 ∧
    x.recordMask.toNat = byteAt body 6 ∧ byteAt body 6 < 128 ∧ x.announceMask.toNat = byteAt body 7 ∧
    byteAt body 7 < 128 ∧ x.heardMask.toNat = byteAt body 8 ∧ byteAt body 8 < 128 ∧
    x.period = byteAt body 9 ∧ 1 ≤ x.period ∧ x.period ≤ 100 ∧
    x.tolerance = byteAt body 10 ∧ 2 ≤ x.tolerance ∧ x.tolerance ≤ 200)

/-- A section in force is one that R176 to R178 allow, after every step. Every step keeps what belongs to an
operating state with it, and the tables and the time count in their ranges. -/
def Obligations.StepKeepsConfigurationStartupAndTables : Prop :=
  (∀ s t : State, s.sc.config.Sound → step s = .next t → t.sc.config.Sound) ∧
  ((∀ s t : State, s.StartupSound → step s = .next t → t.StartupSound) ∧
  (∀ s t : State, s.TablesSound → step s = .next t → t.TablesSound))

/-- SETUP_END in SETUP brings the station to RUNNING and is answered DONE; in RUNNING SETUP_CLOSED. Broadcast it
acts in SETUP without a reply and is ignored in RUNNING (R147, R162, R170). RESTART is answered DONE and sets the
restart owed mark, under which every request is ignored, QUERY, FETCH, PEERS, RELEASE, FORCE, CONFIG, SETUP_END and
RESTART alike; broadcast it is ignored (R147, R163). RELEASE, CONFIG, SETUP_END and RESTART to another station are
dropped (R139, R147). How time passes before the command (by its operand dt, or to the moment it is due) is the
model's choice, log 3. That a destination above 31 is another station's is DEDUCED, log 35. -/
def Obligations.SetupEndAndRestartAreTaken : Prop :=
  (∀ (s w : State) (dt stamp : Nat) (dst : Byte) (levels : BitVec 12), s.lc.line = .receiving (some stamp) →
    dst = s.addressByte ∧ dst ≠ 0#8 ∧ dst ≠ 31#8 ∨ dst = 31#8 → w = State.acceptReception (s.advance dt) →
    (s.rh.restartOwed = false →
      (s.sc.op = .setup → dst = 31#8 →
        exec (.setupEnd dt dst levels) s = .next (w.enterRunning levels).endReply) ∧
      (s.sc.op = .setup → dst ≠ 31#8 →
        exec (.setupEnd dt dst levels) s =
          .next ((w.enterRunning levels).placeReply kindResult [0x27#8, 0#8])) ∧
      (s.sc.op = .running → dst = 31#8 → exec (.setupEnd dt dst levels) s = .next w) ∧
      (s.sc.op = .running → dst ≠ 31#8 →
        exec (.setupEnd dt dst levels) s = .next (w.placeReply kindResult [0x27#8, 5#8])) ∧
      (dst ≠ 31#8 → ∃ t, exec (.restart dt dst) s = .next t ∧
        t = { w.placeReply kindResult [0x28#8, 0#8] with
          rh := { slot := some { kind := 0x34#8, src := s.addressByte, dst := 31#8, payload := [0x28#8, 0#8] },
                  restartOwed := true } })) ∧
    (s.rh.restartOwed = true →
      exec (.setupEnd dt dst levels) s = .next w ∧ exec (.restart dt dst) s = .next w ∧
        exec (.force dt dst) s = .next w ∧ (∀ origin serial, exec (.release dt dst origin serial) s = .next w) ∧
        (∀ page, exec (.query dt dst page) s = .next w) ∧ (∀ start, exec (.fetch dt dst start) s = .next w) ∧
        exec (.peers dt dst) s = .next w ∧
        ∀ payload, 1 ≤ payload.length → payload.length ≤ 64 → exec (.config dt dst payload) s = .next w) ∧
    (dst = 31#8 → s.addressByte ≠ 31#8 → exec (.restart dt dst) s = .next w)) ∧
  (∀ (s w : State) (dt stamp : Nat) (dst : Byte), s.lc.line = .receiving (some stamp) →
    dst ≠ 0#8 → dst ≠ s.addressByte → dst ≠ 31#8 → w = State.acceptReception (s.advance dt) →
    exec (.restart dt dst) s = .next w ∧ (∀ levels, exec (.setupEnd dt dst levels) s = .next w) ∧
    (∀ origin serial, exec (.release dt dst origin serial) s = .next w) ∧
    ∀ payload, 1 ≤ payload.length → payload.length ≤ 64 → exec (.config dt dst payload) s = .next w)

/-! ## Start-up, setup and supply loss -/

/-- The resets: every block takes its state after a reset, the condition set is empty and CAPT held inactive; a
power-on reset discards the history, a retaining one, the reset that follows an owed RESTART among them, leaves the
ring, the record and the serial as stored, but for the check where it struck an operation in flight, and shows its
cause, or POWER_ON where it arose in a held reset in which the supply had passed below the power-on level, a mark
that RESET_POWER_ON sets and that stays until RESET_END (R16, R18, R19, R24, R49, R82, R101, R112, R122, R126, R163
to R166). Where it struck in a step, it finds what the step had done up to that point (R19, R82, R101). Every reset
command completes. At RESET_END the supply is compared, and what it does until STARTING ends is what the commands of
the supply monitor do (R167, R183). That RESET_POWER_ON itself empties the ring, clears the record and sets the
serial to 0, which R167 does in STARTING, is the model's choice, log 33. The operand that says where a reset strikes
is the model's form, log 7, and so are the operands of RESET_END, log 8; the field cut is the model's own, log 7;
that one said to strike an operation in flight leaves the check unequal in every state is the model's choice, log 7.
That RESET_POWER_ON itself empties the ring, clears the record and sets the serial to 0, which R167 does in
STARTING, is the model's choice, log 33. What a held reset leaves in the generators is the model's choice, log 10;
the free values of the durations it stops are log 19; that the restart's reset has no command of its own is DEDUCED,
log 18; that SUPPLY_BELOW_RETENTION_LEVEL outside a held reset changes nothing is the model's choice, log 4. -/
def Obligations.ResetsStopEveryBlockAndComplete : Prop :=
  (∀ s : State, ∃ t, exec .resetPowerOn s = .next t ∧
    t.iq = List.replicate 12 InputRecord.cleared ∧ t.an = Scanner.initial s.an.dither ∧ t.er = Router.initial ∧
    t.tu = TimeUnit.initial ∧ t.pm = PeerMonitor.initial ∧ t.lc = LineController.initial s.lc.generator ∧
    t.rh = RequestHandler.initial ∧ t.sc.op = .starting ∧ t.sc.resetHeld = true ∧ t.sc.setupSince = none ∧
    t.sc.conditions = Conditions.empty ∧ t.sc.supply = .normal ∧ t.flt = false ∧ t.capt = false ∧
    t.sc.cause = .powerOn ∧ t.sc.belowPowerOn = true ∧ t.hr.held = 0 ∧ t.hr.newest = 511 ∧ t.hr.nextSeq = 1 ∧
    t.hr.check = .matching ∧
    t.cc = { record := CaptureRecord.cleared, serial := 0, pendingTrigger := none, postClock := none,
             frozenClock := none } ∧ t.sc.historyLost = false) ∧
  (∀ (s v t : State) (struck : Struck) (cause : ResetCause), v = s.struckBy struck →
    exec (.resetSupplyLow struck) s = .next t ∧ cause = .supplyLow ∨ exec (.resetPin struck) s = .next t ∧ cause = .pin ∨
      t = s.beginReset .restartRequest struck ∧ cause = .restartRequest →
    t.iq = List.replicate 12 InputRecord.cleared ∧ t.an = Scanner.initial v.an.dither ∧ t.er = Router.initial ∧
    t.tu = TimeUnit.initial ∧ t.pm = PeerMonitor.initial ∧ t.lc = LineController.initial v.lc.generator ∧
    t.rh = RequestHandler.initial ∧ t.sc.op = .starting ∧ t.sc.resetHeld = true ∧ t.sc.setupSince = none ∧
    t.sc.conditions = Conditions.empty ∧ t.sc.supply = .normal ∧ t.flt = false ∧ t.capt = false ∧
    t.hr = (if struck = .inFlight then { v.hr with check := .mismatched } else v.hr) ∧
    t.cc.record = v.cc.record ∧ t.cc.serial = v.cc.serial ∧ t.cc.pendingTrigger = none ∧
    (t.cc.postClock = none ↔ v.cc.record.st.held = false) ∧
    (t.cc.frozenClock = none ↔ v.cc.record.st.isFrozen = false) ∧
    (v.sc.resetHeld = true ∧ v.sc.belowPowerOn = true → t.sc.cause = .powerOn) ∧
    (v.sc.resetHeld = false ∨ v.sc.belowPowerOn = false → t.sc.cause = cause) ∧
    (t.sc.belowPowerOn = true ↔ v.sc.resetHeld = true ∧ v.sc.belowPowerOn = true) ∧
    (t.sc.historyLost = true ↔ v.sc.historyLost = true ∧ v.sc.op = .starting)) ∧
  ((∀ s : State, s.struckBy .between = s ∧ s.struckBy .inFlight = s ∧
    ∀ (step : EventStep) (passed : Nat) (u : State), u = State.runStep { s with cut := some passed } step →
      (u.cut = none → s.struckBy (.inStep step passed) = u) ∧
      (u.cut ≠ none → s.struckBy (.inStep step passed) = s)) ∧
  (∀ s u : State,
    (∀ straps supply starting levels, exec (.resetEnd straps supply starting .completes levels) s = .next u →
      s.runStep (.resetEnd straps supply starting levels) = u) ∧
    (∀ levels, exec (.setupWindowExpiry levels) s = .next u → s.runStep (.setupWindowExpiry levels) = u) ∧
    (∀ dt dst levels, exec (.setupEnd dt dst levels) s = .next u → s.runStep (.setupEnd dt dst levels) = u) ∧
    (∀ dt n, exec (.inputEdge dt n) s = .next u → s.runStep (.inputEdge dt n) = u) ∧
    (∀ n, exec (.qualifyTimeExpiry n) s = .next u → s.runStep (.qualifyTimeExpiry n) = u) ∧
    (∀ dt c, exec (.scanEvaluation dt c) s = .next u → s.runStep (.scanEvaluation dt c) = u) ∧
    (∀ dt src dst payload,
      (exec (.beaconReceived dt src dst payload) s = .next u → s.runStep (.beaconReceived dt src dst payload) = u) ∧
      (exec (.triggerReceived dt src dst payload) s = .next u → s.runStep (.triggerReceived dt src dst payload) = u) ∧
      (exec (.eventReceived dt src dst payload) s = .next u → s.runStep (.eventReceived dt src dst payload) = u)) ∧
    (∀ dt frame, exec (.otherFrameReceived dt frame) s = .next u → s.runStep (.otherFrameReceived dt frame) = u) ∧
    (∀ dt, exec (.supplyFallBelowWarning dt) s = .next u → s.runStep (.supplyFallBelowWarning dt) = u))) ∧
  (∀ s : State, (s.sc.resetHeld = true →
      exec .supplyBelowRetentionLevel s = .next { s with hr := { s.hr with check := .mismatched } }) ∧
    (s.sc.resetHeld = false → exec .supplyBelowRetentionLevel s = .next s)) ∧
  ((∀ (s : State) (struck : Struck), exec (.resetSupplyLow struck) s = .next (s.beginReset .supplyLow struck) ∧
    exec (.resetPin struck) s = .next (s.beginReset .pin struck)) ∧
  (∀ (s w : State) (straps : Straps) (supply : SupplyCourse) (starting : Nat) (levels : BitVec 12),
    s.sc.resetHeld = true →
    w = State.readStraps straps (State.advance starting (supply.moments.foldl State.supplyMoment
      (if supply.below then
        State.fallBelowWarning { s with sc := { s.sc with resetHeld := false, belowPowerOn := false } }
       else { s with sc := { s.sc with resetHeld := false, belowPowerOn := false } }))) →
    exec (.resetEnd straps supply starting .struckBeforeRestore levels) s = .next w ∧
    exec (.resetEnd straps supply starting .struckAfterRestore levels) s = .next w.restore ∧
    exec (.resetEnd straps supply starting .completes levels) s = .next (w.restore.leaveStarting levels)) ∧
  (∀ (s u : State) (dt : Nat), s.sc.resetHeld = false →
    (exec (.supplyFallBelowWarning dt) s = .next u → s.supplyMoment (.fall dt) = u) ∧
    (exec (.supplyRiseAboveHysteresis dt) s = .next u → s.supplyMoment (.rise dt) = u) ∧
    (exec (.supplyDipBelowHysteresis dt) s = .next u → s.supplyMoment (.dip dt) = u) ∧
    (exec .restoreTimerExpiry s = .next u → s.supplyMoment .restored = u)))

/-- STARTING: the straps are read, the profile loaded, the generators seeded, START_FAULT set for address 0 or 31;
the station then enters START-FAULT, SETUP with its window, or RUNNING (R79, R133, R145, R167, R169). The restore:
after a power-on reset, or when the check is found unequal, the ring is emptied, the record cleared and the serial
0, and an unequal check sets the history lost indication; when it is equal all is kept, and a capture in POST
becomes FROZEN, cut short (R16, R18, R45, R46). The settings that profile 0 leaves open are the model's choice, log
20. That frozen elapsed holds a free value until entry to RUNNING is the model's choice, log 19. -/
def Obligations.StartingRestoresAndLeadsWhereTheStrapsSay : Prop :=
  (∀ (s : State) (straps : Straps) (levels : BitVec 12),
    (s.readStraps straps = { s with
      sc := { s.sc with
        straps
        config := if straps.profile then profile1 else profile0
        configured := ⟨false, false, false, false⟩
        conditions := if straps.address = 0#5 ∨ straps.address = 31#5
          then { s.sc.conditions with startFault := true } else s.sc.conditions }
      an := { s.an with dither := 2000 + straps.address.toNat }
      lc := { s.lc with generator := 1000 + straps.address.toNat } }) ∧
    (s.address = 0 ∨ s.address = 31 →
      s.leaveStarting levels = { s with sc := { s.sc with op := .startFault } }) ∧
    (1 ≤ s.address → s.address ≤ 30 → s.sc.straps.setup = true →
      s.leaveStarting levels = { s with
        sc := { s.sc with op := .setup, setupSince := some s.tu.elapsed }
        lc := { s.lc with activeSince := some s.tu.elapsed } }) ∧
    (1 ≤ s.address → s.address ≤ 30 → s.sc.straps.setup = false →
      s.leaveStarting levels =
        State.enterRunning levels { s with lc := { s.lc with activeSince := some s.tu.elapsed } })) ∧
  (∀ (s t : State), t = s.restore →
    t.sc.captHeld = false ∧ t.cc.pendingTrigger = s.cc.pendingTrigger ∧
    (s.sc.cause = .powerOn ∨ s.hr.check = .mismatched →
      t.cc.postClock = none ∧ t.cc.frozenClock = none ∧
      t.hr = { s.hr with newest := 511, held := 0, nextSeq := 1, check := .matching } ∧
      t.cc.record = { st := .armed, postWritten := 0, retag := 0, seen := [], overflow := false, unrecorded := 0 } ∧
      t.cc.serial = 0 ∧ (s.sc.cause ≠ .powerOn → t.sc.historyLost = true)) ∧
    (s.sc.cause ≠ .powerOn → s.hr.check = .matching →
      t.hr = s.hr ∧ t.cc.serial = s.cc.serial ∧ t.sc.historyLost = s.sc.historyLost ∧
      t.cc.postClock = s.cc.postClock ∧
      (s.cc.record.st.isPost = false → t.cc.record = s.cc.record ∧ t.cc.frozenClock = s.cc.frozenClock) ∧
      (∀ cur, s.cc.record.st = .post cur → t.cc.record = { s.cc.record with st := .frozen cur .cutShort } ∧
        t.cc.frozenClock = some (.stopped (Config.frozenElapsed s.drawn)))) ∧
    t = { s with
      hr := t.hr, cc := t.cc, sc := { s.sc with captHeld := false, historyLost := t.sc.historyLost },
      drawn := t.drawn })

/-- Entry to RUNNING: the capture state follows the configured setting, a FROZEN record stays and its frozen elapsed
starts; HISTORY_LOST if due, STATION_START and PEERS_PRESENT are handed on in that order; then the beacon schedule,
the scans and input observation start, each observed input at its sampled level. SETUP_WINDOW_EXPIRY brings it about
at 2.0 s (R23, R47, R50, R104, R170 to R172). The values of the three entries are packed byte by byte as Table 10-11
has it. How time passes before the command (by its operand dt, or to the moment it is due) is the model's choice,
log 3. That a reset can strike after the change of the capture state, by the field cut, is the model's choice, log
7. -/
def Obligations.EntryToRunningOpensThePeriod : Prop :=
  (∀ (s w v lost : State) (levels : BitVec 12),
    w = { s with
      sc := { s.sc with op := .running, setupSince := none }
      cc := if s.cc.record.st.isFrozen then { s.cc with frozenClock := some (.running s.tu.elapsed) }
        else { s.cc with record := { s.cc.record with st := if s.station.capture then .armed else .off } }
      hr := if s.cc.record.st.isFrozen then s.hr else { s.hr with check := .matching } } →
    (s.cut = none → v = w) →
    (s.cut = some 0 → v = { w with sc := { w.sc with op := .starting, historyLost := false }, cut := none }) →
    (∀ n, s.cut = some (n + 1) → v = { w with cut := some n }) →
    lost = (if s.sc.historyLost then
        State.emit { time := s.tu.timeCount, kind := .historyLost, value := some s.sc.cause.code, opening := true } v
      else v) →
    s.cc.record.st.isPost = false → ∃ t : State,
    t = State.emit { time := s.tu.timeCount, kind := .peersPresent, opening := true,
                     value := some (packPeers (s.pm.peers.map (·.present))) }
        (State.emit { time := s.tu.timeCount, kind := .stationStart, opening := true,
                      value := some (packStationStart s.sc.cause levels s.sc.straps.profile s.sc.configured) }
          { lost with sc := { lost.sc with historyLost := false } }) ∧
    s.enterRunning levels = { t with
      iq := (List.range 12).map fun n =>
        if (s.inputSetting n).sensitivity = .off then InputRecord.cleared
        else { level := some (levels.getLsbD n), qual := none, mode := .normal none none }
      an := { t.an with nextScan := some s.tu.elapsed }
      tu := { t.tu with schedule := some { origin := s.tu.elapsed, taken := 0 } } }) ∧
  (∀ (s : State) (since : Nat) (levels : BitVec 12), s.sc.op = .setup → s.sc.setupSince = some since →
    exec (.setupWindowExpiry levels) s = .next (State.enterRunning levels (s.advanceTo (since + 2000000)))) ∧
  ((∀ (cause : ResetCause) (levels : BitVec 12) (profile : Bool) (marks : Marks),
    natBE 6 (packStationStart cause levels profile marks) =
      [BitVec.ofNat 8 cause.code, BitVec.ofNat 8 (levels.toNat / 256), BitVec.ofNat 8 levels.toNat,
        if profile then 1#8 else 0#8,
        BitVec.ofNat 8 ((if marks.inputsLow then 1 else 0) + (if marks.inputsHigh then 2 else 0) +
          (if marks.analog then 4 else 0) + (if marks.station then 8 else 0)), 0#8]) ∧
  (∀ (present : List Bool) (a : Nat),
    (packPeers present).testBit a = true ↔ 1 ≤ a ∧ present[a - 1]? = some true) ∧
  [ResetCause.powerOn, .supplyLow, .pin, .restartRequest].map ResetCause.code = [0, 1, 2, 3])

/-- The supply monitor: a fall below the warning threshold in NORMAL gives WARNING, the condition and the
trigger-enabled event; a rise above the hysteresis starts the restore timer, a dip stops it, and at 10 ms the supply
is restored with SUPPLY_RESTORED (R181, R182). How time passes before the command (by its operand dt, or to the
moment it is due) is the model's choice, log 3. -/
def Obligations.SupplyMonitorWarnsAndRestores : Prop :=
  ∀ (s w : State) (dt : Nat), s.sc.resetHeld = false → w = s.advance dt →
    (s.sc.supply = .normal →
      exec (.supplyFallBelowWarning dt) s = .next (State.emit
        { time := w.tu.timeCount, kind := .supplyWarning, trigger := some (.supplyWarning, none) }
        { w with sc := { s.sc with
          supply := .warning none, conditions := { s.sc.conditions with supplyWarning := true } } }) ∧
      exec (.supplyRiseAboveHysteresis dt) s = .next w ∧ exec (.supplyDipBelowHysteresis dt) s = .next w) ∧
    (∀ timer, s.sc.supply = .warning timer →
      exec (.supplyFallBelowWarning dt) s = .next w ∧
      exec (.supplyDipBelowHysteresis dt) s = .next { w with sc := { s.sc with supply := .warning none } } ∧
      (timer = none →
        exec (.supplyRiseAboveHysteresis dt) s =
          .next { w with sc := { s.sc with supply := .warning (some w.tu.elapsed) } }) ∧
      (∀ since v, timer = some since → v = s.advanceTo (since + 10000) →
        exec .restoreTimerExpiry s = .next (State.emit { time := v.tu.timeCount, kind := .supplyRestored }
          { v with sc := { s.sc with
            supply := .normal, conditions := { s.sc.conditions with supplyWarning := false } } })))

/-! ## Frame and record layouts -/

/-- Every frame that R138 does not call broken is read back from its own symbols, and from what a receiver hears of
it, as it was sent (R124, R125, R138, R184). Its symbols are those of Table 10-1 around header, payload and check,
each byte most significant bit first (R124, R184). The check register starts at all ones and takes each bit as R125
says; the check of the nine bytes 0x31 to 0x39 is 0x29B1 (section 10.1). -/
def Obligations.FramesReadBackFromTheirSymbols : Prop :=
  (∀ f : Frame, f.broken = false → frameOfSymbols (byteSymbols f.content) = some f ∧ f.heard.frame = some f) ∧
  (∀ f : Frame, f.heard.symbols = f.symbols) ∧
  (∀ f : Frame,
    f.content = [f.kind, f.src, f.dst, BitVec.ofNat 8 f.payload.length] ++ f.payload ++
      natBE 2 (crc ([f.kind, f.src, f.dst, BitVec.ofNat 8 f.payload.length] ++ f.payload)).toNat ∧
    f.symbols = (List.replicate 8 [Symbol.bit true, Symbol.bit false]).flatten ++
      [.vHigh, .vLow, .bit true, .bit false, .bit true, .bit true, .bit false, .bit true] ++
      f.content.flatMap (fun b => [7, 6, 5, 4, 3, 2, 1, 0].map fun i => Symbol.bit (b.getLsbD i)) ++
      [.vHigh, .vLow, .vHigh, .vLow, .vHigh, .vLow, .vHigh, .vLow]) ∧
  ([Symbol.bit true, .bit false, .vHigh, .vLow].map Symbol.levels =
    [(false, true), (true, false), (true, true), (false, false)]) ∧
  (∀ bs : List Byte, crc bs =
    (bs.flatMap fun b => [7, 6, 5, 4, 3, 2, 1, 0].map fun i => b.getLsbD i).foldl
      (fun (r : Check) b => if r.getLsbD 15 = b then r <<< 1 else (r <<< 1) ^^^ 0x1021#16) 0xFFFF#16) ∧
  (crc [0x31#8, 0x32#8, 0x33#8, 0x34#8, 0x35#8, 0x36#8, 0x37#8, 0x38#8, 0x39#8] = 0x29B1#16 ∧ crc [] = 0xFFFF#16)

/-- A beacon's and a TRIGGER frame's payload read back as what they carry, for every field in its range (R106, R188,
Tables 10-4, 10-5). The records of an EVENT frame read back at the receiver with the frame's source as their origin,
absent fields absent, for every field in its range (R99, R186, R188, Tables 10-6, 10-7). A payload is read exactly
when R188 finds nothing in it out of range or contradicting: sync and capture codes, the length of a beacon's
capture state, tag origin and serial, batch number, record count against the length, kinds listed, subjects, origin
seqs present and not 0, and absent fields zero (R188). That a record of class CAPTURE is not tested for an absent
origin seq is DEDUCED, log 13; a subject of another sort than its kind's is free, log 12; that a record may lack the
fields of its kind is DEDUCED, log 30; that the sync code is the whole byte is DEDUCED, log 36. -/
def Obligations.StationPayloadsReadBack : Prop :=
  ((∀ b : BeaconFields, b.sender ≤ timeTop →
    (b.capture = .off ∨ b.capture = .armed → b.tag = none → parseBeacon (beaconPayload b) = some b) ∧
    (b.capture = .post ∨ b.capture = .frozen → ∀ t, b.tag = some t → 1 ≤ t.tag.origin → t.tag.origin ≤ 30 →
      1 ≤ t.tag.serial → t.tag.serial ≤ 255 → t.time ≤ timeTop → parseBeacon (beaconPayload b) = some b)) ∧
  (∀ t : TimedTag, 1 ≤ t.tag.origin → t.tag.origin ≤ 30 → 1 ≤ t.tag.serial → t.tag.serial ≤ 255 → t.time ≤ timeTop →
    parseTrigger (triggerPayload t) = some t)) ∧
  (∀ (e : EventFields) (src : Nat), 1 ≤ e.number → e.number ≤ 255 → e.drops ≤ 255 → e.records.length ≤ 3 →
    (∀ d ∈ e.records, d.time ≤ timeTop ∧ d.capture = none ∧ d.kind.class ≠ 7 ∧
      (∀ q, d.originSeq = some q → 1 ≤ q ∧ q < seqLimit) ∧ (∀ v, d.value = some v → v ≤ timeTop) ∧
      (∀ c, d.subject = some c → d.kind.subjectSort.lists c = true)) →
    parseEvent src (eventPayload e) =
      some { e with records := e.records.map fun d => { d with origin := src } }) ∧
  (∀ (p : List Byte) (b : BeaconFields), parseBeacon p = some b ↔
    b.sender = fieldAt p 0 6 ∧
    (byteAt p 6 = 0 ∧ b.sync = .free ∨ byteAt p 6 = 1 ∧ b.sync = .synced ∨ byteAt p 6 = 2 ∧ b.sync = .lost) ∧
    ((byteAt p 7 = 0 ∧ b.capture = .off ∨ byteAt p 7 = 1 ∧ b.capture = .armed) ∧ p.length = 8 ∧ b.tag = none ∨
      (byteAt p 7 = 2 ∧ b.capture = .post ∨ byteAt p 7 = 3 ∧ b.capture = .frozen) ∧ p.length = 16 ∧
        1 ≤ byteAt p 8 ∧ byteAt p 8 ≤ 30 ∧ 1 ≤ byteAt p 9 ∧
        b.tag = some { tag := { origin := byteAt p 8, serial := byteAt p 9 }, time := fieldAt p 10 6 })) ∧
  (∀ (p : List Byte) (t : TimedTag), parseTrigger p = some t ↔
    1 ≤ byteAt p 0 ∧ byteAt p 0 ≤ 30 ∧ 1 ≤ byteAt p 1 ∧
    t = { tag := { origin := byteAt p 0, serial := byteAt p 1 }, time := fieldAt p 2 6 }) ∧
  (∀ (src : Nat) (p : List Byte) (e : EventFields), parseEvent src p = some e ↔
    e.number = byteAt p 0 ∧ 1 ≤ byteAt p 0 ∧ e.drops = byteAt p 1 ∧ byteAt p 2 ≤ 3 ∧ p.length = 3 + 20 * byteAt p 2 ∧
    e.records.length = byteAt p 2 ∧
    ∀ (i k presence : Nat) (d : Draft), i < byteAt p 2 → k = 3 + 20 * i → presence = byteAt p (k + 6) →
      e.records[i]? = some d →
      d.origin = src ∧ d.capture = none ∧ d.time = fieldAt p k 6 ∧
      byteAt p (k + 7) = 32 * d.kind.class + d.kind.number ∧
      (byteAt p (k + 9) = 0 ∧ d.sync = .free ∨ byteAt p (k + 9) = 1 ∧ d.sync = .synced ∨
        byteAt p (k + 9) = 2 ∧ d.sync = .lost) ∧
      (presence / 32 % 2 = 1 ∧ subjectAllowed d.kind (byteAt p (k + 8)) = true ∧ d.subject = some (byteAt p (k + 8)) ∨
        presence / 32 % 2 = 0 ∧ byteAt p (k + 8) = 0 ∧ d.subject = none) ∧
      (presence / 64 % 2 = 1 ∧ d.value = some (fieldAt p (k + 10) 6) ∨
        presence / 64 % 2 = 0 ∧ fieldAt p (k + 10) 6 = 0 ∧ d.value = none) ∧
      (presence / 128 % 2 = 1 ∧ 1 ≤ fieldAt p (k + 16) 4 ∧ d.originSeq = some (fieldAt p (k + 16) 4) ∨
        presence / 128 % 2 = 0 ∧ (d.kind.class = 7 ∨ fieldAt p (k + 16) 4 = 0) ∧ d.originSeq = none)) ∧
  (∀ (k : Kind) (c : Nat),
    (k.subjectSort.lists c = true ↔ k.class ≤ 2 ∧ c ≤ 11 ∨ (k.class = 3 ∨ k.class = 4) ∧ c ≤ 3 ∨
      k = .analogFault ∧ (c = 16 ∨ c = 17) ∨
      (k = .peerSeen ∨ k = .peerLost ∨ k.class = 7) ∧ 1 ≤ c ∧ c ≤ 30) ∧
    (k.subjectSort.lists c = true → subjectAllowed k c = true) ∧ (30 < c → subjectAllowed k c = false))

end
end

