-- ==== Sys2Proof/Laws/Codec.lean ====
section
/-!
SUPPORT. Numbers, bits and records read back from the bytes they were built as (R125, R184, R186).
-/

namespace Sys2Proof

open Machine

/-- A field of `w` bytes is `w` bytes long. -/
@[simp] theorem natBE_length (w n : Nat) : (natBE w n).length = w := by
  induction w with
  | zero => rfl
  | succ w ih => simp [natBE, ih]

/-- A number is read back from a field that is wide enough (R184). -/
theorem beNat_natBE (w n : Nat) (h : n < 256 ^ w) : beNat (natBE w n) = n := by
  have key : ∀ w n acc, (natBE w n).foldl (fun acc (b : Byte) => acc * 256 + b.toNat) acc =
      acc * 256 ^ w + n % 256 ^ w := by
    intro w
    induction w with
    | zero => intro n acc; simp [natBE, Nat.mod_one]
    | succ w ih =>
      intro n acc
      simp only [natBE, List.foldl_cons, ih, BitVec.toNat_ofNat]
      rw [show (2 : Nat) ^ 8 = 256 by rfl]
      have h1 : n % 256 ^ (w + 1) = 256 ^ w * (n / 256 ^ w % 256) + n % 256 ^ w := by
        rw [pow_succ, Nat.mod_mul]; omega
      rw [h1, pow_succ]; ring
  simp [beNat, key, Nat.mod_eq_of_lt h]

/-- Six, four and two bytes, written out. -/
theorem natBE_six (n : Nat) :
    natBE 6 n = [byteOf (n / 256 ^ 5), byteOf (n / 256 ^ 4), byteOf (n / 256 ^ 3), byteOf (n / 256 ^ 2),
      byteOf (n / 256), byteOf n] := by
  simp [natBE, byteOf]

theorem natBE_four (n : Nat) :
    natBE 4 n = [byteOf (n / 256 ^ 3), byteOf (n / 256 ^ 2), byteOf (n / 256), byteOf n] := by
  simp [natBE, byteOf]

theorem natBE_two (n : Nat) : natBE 2 n = [byteOf (n / 256), byteOf n] := by
  simp [natBE, byteOf]

/-- Data symbols carry their bits. -/
theorem symbolBits_bits (l : List Bool) : symbolBits (l.map Symbol.bit) = some l := by
  induction l with
  | nil => rfl
  | cons b l ih => simp [symbolBits, ih]

/-- A byte is the byte of its bits. -/
theorem byteOfBits_self (b : Byte) :
    byteOfBits (b.getLsbD 7) (b.getLsbD 6) (b.getLsbD 5) (b.getLsbD 4) (b.getLsbD 3) (b.getLsbD 2) (b.getLsbD 1)
      (b.getLsbD 0) = b := by
  revert b; decide +kernel

/-- Bytes are read back from their bits (R184). -/
theorem bitBytes_byteBits (l : List Byte) : bitBytes (l.flatMap byteBits) = some l := by
  induction l with
  | nil => rfl
  | cons b l ih =>
    rw [List.flatMap_cons]
    simp only [byteBits, List.cons_append, List.nil_append, bitBytes, byteOfBits_self]
    rw [ih]; rfl

/-- Symbols are read as bits exactly when they are the data symbols of those bits (R138). -/
theorem symbolBits_iff (l : List Symbol) (bits : List Bool) : symbolBits l = some bits ↔ l = bits.map Symbol.bit := by
  refine ⟨fun h => ?_, fun h => h ▸ symbolBits_bits bits⟩
  induction l generalizing bits with
  | nil => simp [symbolBits] at h; simp [← h]
  | cons a l ih =>
    cases a with
    | bit b =>
      simp only [symbolBits, Option.map_eq_some_iff] at h
      obtain ⟨t, ht, rfl⟩ := h
      simp [ih t ht]
    | vHigh => simp [symbolBits] at h
    | vLow => simp [symbolBits] at h

/-- The bits of a byte made of bits. -/
theorem byteBits_byteOfBits (a b c d e f g h : Bool) :
    byteBits (byteOfBits a b c d e f g h) = [a, b, c, d, e, f, g, h] := by
  revert a b c d e f g h; decide +kernel

/-- Bits are read as bytes exactly when they are those bytes' bits: left-over bits are no byte (R138). -/
theorem bitBytes_iff (l : List Bool) (bs : List Byte) : bitBytes l = some bs ↔ l = bs.flatMap byteBits := by
  refine ⟨fun h => ?_, fun h => h ▸ bitBytes_byteBits bs⟩
  induction l using bitBytes.induct generalizing bs with
  | case1 => injection h with h; subst h; rfl
  | case2 a b c d e f g k rest ih =>
    rw [bitBytes, Option.map_eq_some_iff] at h
    obtain ⟨t, ht, rfl⟩ := h
    rw [List.flatMap_cons, byteBits_byteOfBits, ← ih t ht]; rfl
  | case3 l h1 h2 =>
    unfold bitBytes at h; split at h
    · exact absurd rfl h1
    · exact absurd rfl (h2 _ _ _ _ _ _ _ _ _)
    · cases h

namespace Machine

/-- A byte holds a number below 256. -/
theorem byteOf_toNat {n : Nat} (h : n < 256) : (byteOf n).toNat = n := by
  simp [byteOf]; omega

/-- A field read where its bytes stand. -/
theorem fieldAt_eq {l : List Byte} {i n v : Nat} (h : slice l i n = natBE n v) (hv : v < 256 ^ n) :
    fieldAt l i n = v := by
  simp only [fieldAt, h]; exact beNat_natBE _ _ hv

/-- A byte read where it stands. -/
theorem byteAt_eq {l : List Byte} {i v : Nat} (h : l.getD i 0#8 = byteOf v) (hv : v < 256) : byteAt l i = v := by
  simp only [byteAt, h]; exact byteOf_toNat hv

/-- Tag and trigger time read back (R188). -/
theorem parseTimedTag_bytes (t : TimedTag) (h1 : 1 ≤ t.tag.origin) (h2 : t.tag.origin ≤ 30) (h3 : 1 ≤ t.tag.serial)
    (h4 : t.tag.serial ≤ 255) (h5 : t.time ≤ timeTop) : parseTimedTag (timedTagBytes t) = some t := by
  simp only [timeTop] at h5
  have a : byteAt (timedTagBytes t) 0 = t.tag.origin := byteAt_eq rfl (by omega)
  have b : byteAt (timedTagBytes t) 1 = t.tag.serial := byteAt_eq rfl (by omega)
  have c : fieldAt (timedTagBytes t) 2 6 = t.time :=
    fieldAt_eq (by simp [timedTagBytes, slice, natBE_six]) (by omega)
  simp only [parseTimedTag, a, b, c]
  rw [if_pos (by simp; omega)]

/-- An event record is 20 bytes long (R186). -/
theorem recordBytes_length (d : Draft) : (recordBytes d).length = 20 := by
  cases h : d.capture with
  | none => simp [recordBytes, h]
  | some c =>
    obtain ⟨serial, detail⟩ := c
    cases detail <;> simp [recordBytes, h, CaptureContent.bytes]

/-- A kind, a sync state and a capture code are read back from their codes. -/
theorem Kind.ofCode_code (k : Kind) : Kind.ofCode k.code = some k := by cases k <;> decide

theorem SyncState.ofCode_code (x : SyncState) : SyncState.ofCode x.code = some x := by cases x <;> rfl

theorem CaptureCode.ofCode_code (x : CaptureCode) : CaptureCode.ofCode x.code = some x := by cases x <;> rfl

/-- A byte is the code of a kind, a sync state or a capture state exactly when the tables list it so (Tables 10-7, 10-9
and 10-16). -/
theorem Kind.ofCode_iff (c : Nat) (k : Kind) : Kind.ofCode c = some k ↔ c = 32 * k.class + k.number := by
  refine ⟨fun h => ?_, fun h => h ▸ Kind.ofCode_code k⟩
  have := List.find?_some h
  simp [Kind.code] at this; exact this.symm

theorem SyncState.ofCode_iff (c : Nat) (x : SyncState) :
    SyncState.ofCode c = some x ↔ c = 0 ∧ x = .free ∨ c = 1 ∧ x = .synced ∨ c = 2 ∧ x = .lost := by
  match c with
  | 0 => simp [SyncState.ofCode, eq_comm]
  | 1 => simp [SyncState.ofCode, eq_comm]
  | 2 => simp [SyncState.ofCode, eq_comm]
  | n + 3 => simp [SyncState.ofCode]

theorem CaptureCode.ofCode_iff (c : Nat) (x : CaptureCode) :
    CaptureCode.ofCode c = some x ↔
      c = 0 ∧ x = .off ∨ c = 1 ∧ x = .armed ∨ c = 2 ∧ x = .post ∨ c = 3 ∧ x = .frozen := by
  match c with
  | 0 => simp [CaptureCode.ofCode, eq_comm]
  | 1 => simp [CaptureCode.ofCode, eq_comm]
  | 2 => simp [CaptureCode.ofCode, eq_comm]
  | 3 => simp [CaptureCode.ofCode, eq_comm]
  | n + 4 => simp [CaptureCode.ofCode]

/-- When tag and trigger time are read (R188). -/
theorem parseTimedTag_iff (p : List Byte) (t : TimedTag) : parseTimedTag p = some t ↔
    1 ≤ byteAt p 0 ∧ byteAt p 0 ≤ 30 ∧ 1 ≤ byteAt p 1 ∧
    t = { tag := { origin := byteAt p 0, serial := byteAt p 1 }, time := fieldAt p 2 6 } := by
  simp only [parseTimedTag, Option.ite_none_right_eq_some, Bool.and_eq_true, bne_iff_ne, decide_eq_true_eq,
    Option.some.injEq]
  constructor
  · rintro ⟨⟨⟨h1, h2⟩, h3⟩, rfl⟩; exact ⟨h1, h2, by omega, rfl⟩
  · rintro ⟨h1, h2, h3, rfl⟩; exact ⟨⟨⟨h1, h2⟩, by omega⟩, rfl⟩

/-- When a record is read, and as what (R188, Table 10-7). -/
theorem parseRecord_iff (origin : Nat) (r : List Byte) (d : Draft) : parseRecord origin r = some d ↔
    Kind.ofCode (byteAt r 7) = some d.kind ∧ SyncState.ofCode (byteAt r 9) = some d.sync ∧ d.origin = origin ∧
    d.time = fieldAt r 0 6 ∧ d.capture = none ∧
    (if hasSubject r then subjectAllowed d.kind (byteAt r 8) = true ∧ d.subject = some (byteAt r 8)
      else byteAt r 8 = 0 ∧ d.subject = none) ∧
    (if hasValue r then d.value = some (fieldAt r 10 6) else fieldAt r 10 6 = 0 ∧ d.value = none) ∧
    (if hasOriginSeq r then fieldAt r 16 4 ≠ 0 ∧ d.originSeq = some (fieldAt r 16 4)
      else (d.kind.class = 7 ∨ fieldAt r 16 4 = 0) ∧ d.originSeq = none) := by
  obtain ⟨time, org, oseq, kind, subj, val, cap, sync⟩ := d
  simp only [parseRecord]
  cases Kind.ofCode (byteAt r 7) with
  | none => simp
  | some k =>
    cases SyncState.ofCode (byteAt r 9) with
    | none => simp
    | some sy =>
      cases hasSubject r <;> cases hasValue r <;> cases hasOriginSeq r <;>
        simp only [Option.ite_none_right_eq_some, Option.some.injEq, Draft.mk.injEq, Bool.and_eq_true, Bool.or_eq_true,
          beq_iff_eq, bne_iff_ne, if_true, if_false, Bool.false_eq_true, Bool.true_or, Bool.false_or] <;>
        constructor <;>
        (rintro ⟨h1, h2⟩
         repeat (obtain ⟨rfl, h2⟩ := h2)
         simp_all)

/-- A byte of a section body stands at its own place in the bytes around it. -/
theorem byteAt_slice (bs : List Byte) (i n j : Nat) (h : j < n) : byteAt (slice bs i n) j = byteAt bs (i + j) := by
  simp [byteAt, slice, List.getD, h]

/-- So does a field of it. -/
theorem fieldAt_slice (bs : List Byte) (i n j k : Nat) (h : j + k ≤ n) :
    fieldAt (slice bs i n) j k = fieldAt bs (i + j) k := by
  simp only [fieldAt, slice]; congr 1
  rw [List.drop_take, List.take_take, List.drop_drop]; congr 1; omega

/-- All results of a list are present exactly when it is the list of them. -/
theorem allSome_iff {α : Type} (l : List (Option α)) (xs : List α) : allSome l = some xs ↔ l = xs.map some := by
  induction l generalizing xs with
  | nil => cases xs <;> simp [allSome]
  | cons a l ih =>
    cases a with
    | none => cases xs <;> simp [allSome]
    | some a =>
      cases xs with
      | nil => simp [allSome]
      | cons x xs => simp [allSome, ih]; tauto

/-- The results for 0 to `n - 1` are `xs` exactly when `xs` has `n` members and each is the result for its place. -/
theorem allSome_range_iff {α : Type} (n : Nat) (f : Nat → Option α) (xs : List α) :
    allSome ((List.range n).map f) = some xs ↔
      xs.length = n ∧ ∀ i x, i < n → xs[i]? = some x → f i = some x := by
  rw [allSome_iff]
  constructor
  · intro h
    have hl : xs.length = n := by have := congrArg List.length h; simpa using this.symm
    refine ⟨hl, fun i x hi hx => ?_⟩
    have := congrArg (fun l => l[i]?) h
    simpa [hi, hx] using this
  · rintro ⟨hl, h⟩
    apply List.ext_getElem?
    intro i
    by_cases hi : i < n
    · have hx : xs[i]? = some xs[i] := List.getElem?_eq_getElem (by omega)
      simp [hi, hx, h i _ hi hx]
    · have hx : xs.length ≤ i := by omega
      simp [hi, hx]

end Machine

end Sys2Proof
end

