-- ==== Sys2Proof/Laws/State.lean ====
section
/-!
SUPPORT. What each shared operation leaves alone: one lemma for each block it does not touch.
-/

namespace Sys2Proof.Machine

@[simp] theorem State.setRecord_iq (r : CaptureRecord) (s : State) : (s.setRecord r).iq = s.iq := rfl
@[simp] theorem State.setRecord_an (r : CaptureRecord) (s : State) : (s.setRecord r).an = s.an := rfl
@[simp] theorem State.setRecord_er (r : CaptureRecord) (s : State) : (s.setRecord r).er = s.er := rfl
@[simp] theorem State.setRecord_tu (r : CaptureRecord) (s : State) : (s.setRecord r).tu = s.tu := rfl
@[simp] theorem State.setRecord_pm (r : CaptureRecord) (s : State) : (s.setRecord r).pm = s.pm := rfl
@[simp] theorem State.setRecord_lc (r : CaptureRecord) (s : State) : (s.setRecord r).lc = s.lc := rfl
@[simp] theorem State.setRecord_rh (r : CaptureRecord) (s : State) : (s.setRecord r).rh = s.rh := rfl
@[simp] theorem State.setRecord_sc (r : CaptureRecord) (s : State) : (s.setRecord r).sc = s.sc := rfl
@[simp] theorem State.setRecord_pending (r : CaptureRecord) (s : State) : (s.setRecord r).pending = s.pending := rfl
@[simp] theorem State.setRecord_drawn (r : CaptureRecord) (s : State) : (s.setRecord r).drawn = s.drawn := rfl
@[simp] theorem State.setRecord_cut (r : CaptureRecord) (s : State) : (s.setRecord r).cut = s.cut := rfl
@[simp] theorem State.clearRecord_iq (s : State) : (s.clearRecord).iq = s.iq := rfl
@[simp] theorem State.clearRecord_an (s : State) : (s.clearRecord).an = s.an := rfl
@[simp] theorem State.clearRecord_er (s : State) : (s.clearRecord).er = s.er := rfl
@[simp] theorem State.clearRecord_tu (s : State) : (s.clearRecord).tu = s.tu := rfl
@[simp] theorem State.clearRecord_pm (s : State) : (s.clearRecord).pm = s.pm := rfl
@[simp] theorem State.clearRecord_lc (s : State) : (s.clearRecord).lc = s.lc := rfl
@[simp] theorem State.clearRecord_rh (s : State) : (s.clearRecord).rh = s.rh := rfl
@[simp] theorem State.clearRecord_sc (s : State) : (s.clearRecord).sc = s.sc := rfl
@[simp] theorem State.clearRecord_pending (s : State) : (s.clearRecord).pending = s.pending := rfl
@[simp] theorem State.clearRecord_drawn (s : State) : (s.clearRecord).drawn = s.drawn := rfl
@[simp] theorem State.clearRecord_cut (s : State) : (s.clearRecord).cut = s.cut := rfl
@[simp] theorem State.countUnrecorded_iq (s : State) : (s.countUnrecorded).iq = s.iq := rfl
@[simp] theorem State.countUnrecorded_an (s : State) : (s.countUnrecorded).an = s.an := rfl
@[simp] theorem State.countUnrecorded_er (s : State) : (s.countUnrecorded).er = s.er := rfl
@[simp] theorem State.countUnrecorded_tu (s : State) : (s.countUnrecorded).tu = s.tu := rfl
@[simp] theorem State.countUnrecorded_pm (s : State) : (s.countUnrecorded).pm = s.pm := rfl
@[simp] theorem State.countUnrecorded_lc (s : State) : (s.countUnrecorded).lc = s.lc := rfl
@[simp] theorem State.countUnrecorded_rh (s : State) : (s.countUnrecorded).rh = s.rh := rfl
@[simp] theorem State.countUnrecorded_sc (s : State) : (s.countUnrecorded).sc = s.sc := rfl
@[simp] theorem State.countUnrecorded_pending (s : State) : (s.countUnrecorded).pending = s.pending := rfl
@[simp] theorem State.countUnrecorded_drawn (s : State) : (s.countUnrecorded).drawn = s.drawn := rfl
@[simp] theorem State.countUnrecorded_cut (s : State) : (s.countUnrecorded).cut = s.cut := rfl
@[simp] theorem State.setCondition_hr (m : Condition) (v : Bool) (s : State) : (s.setCondition m v).hr = s.hr := rfl
@[simp] theorem State.setCondition_cc (m : Condition) (v : Bool) (s : State) : (s.setCondition m v).cc = s.cc := rfl
@[simp] theorem State.setCondition_iq (m : Condition) (v : Bool) (s : State) : (s.setCondition m v).iq = s.iq := rfl
@[simp] theorem State.setCondition_an (m : Condition) (v : Bool) (s : State) : (s.setCondition m v).an = s.an := rfl
@[simp] theorem State.setCondition_er (m : Condition) (v : Bool) (s : State) : (s.setCondition m v).er = s.er := rfl
@[simp] theorem State.setCondition_tu (m : Condition) (v : Bool) (s : State) : (s.setCondition m v).tu = s.tu := rfl
@[simp] theorem State.setCondition_pm (m : Condition) (v : Bool) (s : State) : (s.setCondition m v).pm = s.pm := rfl
@[simp] theorem State.setCondition_lc (m : Condition) (v : Bool) (s : State) : (s.setCondition m v).lc = s.lc := rfl
@[simp] theorem State.setCondition_rh (m : Condition) (v : Bool) (s : State) : (s.setCondition m v).rh = s.rh := rfl
@[simp] theorem State.setCondition_pending (m : Condition) (v : Bool) (s : State) : (s.setCondition m v).pending = s.pending := rfl
@[simp] theorem State.setCondition_drawn (m : Condition) (v : Bool) (s : State) : (s.setCondition m v).drawn = s.drawn := rfl
@[simp] theorem State.setCondition_cut (m : Condition) (v : Bool) (s : State) : (s.setCondition m v).cut = s.cut := rfl
@[simp] theorem State.setInput_hr (n : Nat) (r : InputRecord) (s : State) : (s.setInput n r).hr = s.hr := rfl
@[simp] theorem State.setInput_cc (n : Nat) (r : InputRecord) (s : State) : (s.setInput n r).cc = s.cc := rfl
@[simp] theorem State.setInput_an (n : Nat) (r : InputRecord) (s : State) : (s.setInput n r).an = s.an := rfl
@[simp] theorem State.setInput_er (n : Nat) (r : InputRecord) (s : State) : (s.setInput n r).er = s.er := rfl
@[simp] theorem State.setInput_tu (n : Nat) (r : InputRecord) (s : State) : (s.setInput n r).tu = s.tu := rfl
@[simp] theorem State.setInput_pm (n : Nat) (r : InputRecord) (s : State) : (s.setInput n r).pm = s.pm := rfl
@[simp] theorem State.setInput_lc (n : Nat) (r : InputRecord) (s : State) : (s.setInput n r).lc = s.lc := rfl
@[simp] theorem State.setInput_rh (n : Nat) (r : InputRecord) (s : State) : (s.setInput n r).rh = s.rh := rfl
@[simp] theorem State.setInput_sc (n : Nat) (r : InputRecord) (s : State) : (s.setInput n r).sc = s.sc := rfl
@[simp] theorem State.setInput_pending (n : Nat) (r : InputRecord) (s : State) : (s.setInput n r).pending = s.pending := rfl
@[simp] theorem State.setInput_drawn (n : Nat) (r : InputRecord) (s : State) : (s.setInput n r).drawn = s.drawn := rfl
@[simp] theorem State.setInput_cut (n : Nat) (r : InputRecord) (s : State) : (s.setInput n r).cut = s.cut := rfl
@[simp] theorem State.setPeer_hr (a : Nat) (p : PeerEntry) (s : State) : (s.setPeer a p).hr = s.hr := rfl
@[simp] theorem State.setPeer_cc (a : Nat) (p : PeerEntry) (s : State) : (s.setPeer a p).cc = s.cc := rfl
@[simp] theorem State.setPeer_iq (a : Nat) (p : PeerEntry) (s : State) : (s.setPeer a p).iq = s.iq := rfl
@[simp] theorem State.setPeer_an (a : Nat) (p : PeerEntry) (s : State) : (s.setPeer a p).an = s.an := rfl
@[simp] theorem State.setPeer_er (a : Nat) (p : PeerEntry) (s : State) : (s.setPeer a p).er = s.er := rfl
@[simp] theorem State.setPeer_tu (a : Nat) (p : PeerEntry) (s : State) : (s.setPeer a p).tu = s.tu := rfl
@[simp] theorem State.setPeer_lc (a : Nat) (p : PeerEntry) (s : State) : (s.setPeer a p).lc = s.lc := rfl
@[simp] theorem State.setPeer_rh (a : Nat) (p : PeerEntry) (s : State) : (s.setPeer a p).rh = s.rh := rfl
@[simp] theorem State.setPeer_sc (a : Nat) (p : PeerEntry) (s : State) : (s.setPeer a p).sc = s.sc := rfl
@[simp] theorem State.setPeer_pending (a : Nat) (p : PeerEntry) (s : State) : (s.setPeer a p).pending = s.pending := rfl
@[simp] theorem State.setPeer_drawn (a : Nat) (p : PeerEntry) (s : State) : (s.setPeer a p).drawn = s.drawn := rfl
@[simp] theorem State.setPeer_cut (a : Nat) (p : PeerEntry) (s : State) : (s.setPeer a p).cut = s.cut := rfl
@[simp] theorem State.startReceiver_hr (s : State) : (s.startReceiver).hr = s.hr := rfl
@[simp] theorem State.startReceiver_cc (s : State) : (s.startReceiver).cc = s.cc := rfl
@[simp] theorem State.startReceiver_iq (s : State) : (s.startReceiver).iq = s.iq := rfl
@[simp] theorem State.startReceiver_an (s : State) : (s.startReceiver).an = s.an := rfl
@[simp] theorem State.startReceiver_er (s : State) : (s.startReceiver).er = s.er := rfl
@[simp] theorem State.startReceiver_tu (s : State) : (s.startReceiver).tu = s.tu := rfl
@[simp] theorem State.startReceiver_pm (s : State) : (s.startReceiver).pm = s.pm := rfl
@[simp] theorem State.startReceiver_rh (s : State) : (s.startReceiver).rh = s.rh := rfl
@[simp] theorem State.startReceiver_sc (s : State) : (s.startReceiver).sc = s.sc := rfl
@[simp] theorem State.startReceiver_pending (s : State) : (s.startReceiver).pending = s.pending := rfl
@[simp] theorem State.startReceiver_drawn (s : State) : (s.startReceiver).drawn = s.drawn := rfl
@[simp] theorem State.startReceiver_cut (s : State) : (s.startReceiver).cut = s.cut := rfl
@[simp] theorem State.lineQuiet_hr (s : State) : (s.lineQuiet).hr = s.hr := rfl
@[simp] theorem State.lineQuiet_cc (s : State) : (s.lineQuiet).cc = s.cc := rfl
@[simp] theorem State.lineQuiet_iq (s : State) : (s.lineQuiet).iq = s.iq := rfl
@[simp] theorem State.lineQuiet_an (s : State) : (s.lineQuiet).an = s.an := rfl
@[simp] theorem State.lineQuiet_er (s : State) : (s.lineQuiet).er = s.er := rfl
@[simp] theorem State.lineQuiet_tu (s : State) : (s.lineQuiet).tu = s.tu := rfl
@[simp] theorem State.lineQuiet_pm (s : State) : (s.lineQuiet).pm = s.pm := rfl
@[simp] theorem State.lineQuiet_rh (s : State) : (s.lineQuiet).rh = s.rh := rfl
@[simp] theorem State.lineQuiet_sc (s : State) : (s.lineQuiet).sc = s.sc := rfl
@[simp] theorem State.lineQuiet_pending (s : State) : (s.lineQuiet).pending = s.pending := rfl
@[simp] theorem State.lineQuiet_drawn (s : State) : (s.lineQuiet).drawn = s.drawn := rfl
@[simp] theorem State.lineQuiet_cut (s : State) : (s.lineQuiet).cut = s.cut := rfl
@[simp] theorem State.breakReception_hr (s : State) : (s.breakReception).hr = s.hr := rfl
@[simp] theorem State.breakReception_cc (s : State) : (s.breakReception).cc = s.cc := rfl
@[simp] theorem State.breakReception_iq (s : State) : (s.breakReception).iq = s.iq := rfl
@[simp] theorem State.breakReception_an (s : State) : (s.breakReception).an = s.an := rfl
@[simp] theorem State.breakReception_er (s : State) : (s.breakReception).er = s.er := rfl
@[simp] theorem State.breakReception_tu (s : State) : (s.breakReception).tu = s.tu := rfl
@[simp] theorem State.breakReception_pm (s : State) : (s.breakReception).pm = s.pm := rfl
@[simp] theorem State.breakReception_rh (s : State) : (s.breakReception).rh = s.rh := rfl
@[simp] theorem State.breakReception_sc (s : State) : (s.breakReception).sc = s.sc := rfl
@[simp] theorem State.breakReception_pending (s : State) : (s.breakReception).pending = s.pending := rfl
@[simp] theorem State.breakReception_drawn (s : State) : (s.breakReception).drawn = s.drawn := rfl
@[simp] theorem State.breakReception_cut (s : State) : (s.breakReception).cut = s.cut := rfl
@[simp] theorem State.acceptReception_hr (s : State) : (s.acceptReception).hr = s.hr := rfl
@[simp] theorem State.acceptReception_cc (s : State) : (s.acceptReception).cc = s.cc := rfl
@[simp] theorem State.acceptReception_iq (s : State) : (s.acceptReception).iq = s.iq := rfl
@[simp] theorem State.acceptReception_an (s : State) : (s.acceptReception).an = s.an := rfl
@[simp] theorem State.acceptReception_er (s : State) : (s.acceptReception).er = s.er := rfl
@[simp] theorem State.acceptReception_tu (s : State) : (s.acceptReception).tu = s.tu := rfl
@[simp] theorem State.acceptReception_pm (s : State) : (s.acceptReception).pm = s.pm := rfl
@[simp] theorem State.acceptReception_rh (s : State) : (s.acceptReception).rh = s.rh := rfl
@[simp] theorem State.acceptReception_sc (s : State) : (s.acceptReception).sc = s.sc := rfl
@[simp] theorem State.acceptReception_pending (s : State) : (s.acceptReception).pending = s.pending := rfl
@[simp] theorem State.acceptReception_drawn (s : State) : (s.acceptReception).drawn = s.drawn := rfl
@[simp] theorem State.acceptReception_cut (s : State) : (s.acceptReception).cut = s.cut := rfl
@[simp] theorem State.activityBegins_hr (s : State) : (s.activityBegins).hr = s.hr := rfl
@[simp] theorem State.activityBegins_cc (s : State) : (s.activityBegins).cc = s.cc := rfl
@[simp] theorem State.activityBegins_iq (s : State) : (s.activityBegins).iq = s.iq := rfl
@[simp] theorem State.activityBegins_an (s : State) : (s.activityBegins).an = s.an := rfl
@[simp] theorem State.activityBegins_er (s : State) : (s.activityBegins).er = s.er := rfl
@[simp] theorem State.activityBegins_tu (s : State) : (s.activityBegins).tu = s.tu := rfl
@[simp] theorem State.activityBegins_pm (s : State) : (s.activityBegins).pm = s.pm := rfl
@[simp] theorem State.activityBegins_rh (s : State) : (s.activityBegins).rh = s.rh := rfl
@[simp] theorem State.activityBegins_sc (s : State) : (s.activityBegins).sc = s.sc := rfl
@[simp] theorem State.activityBegins_pending (s : State) : (s.activityBegins).pending = s.pending := rfl
@[simp] theorem State.activityBegins_drawn (s : State) : (s.activityBegins).drawn = s.drawn := rfl
@[simp] theorem State.activityBegins_cut (s : State) : (s.activityBegins).cut = s.cut := rfl
@[simp] theorem State.collide_hr (k : Nat) (s : State) : (s.collide k).hr = s.hr := rfl
@[simp] theorem State.collide_cc (k : Nat) (s : State) : (s.collide k).cc = s.cc := rfl
@[simp] theorem State.collide_iq (k : Nat) (s : State) : (s.collide k).iq = s.iq := rfl
@[simp] theorem State.collide_an (k : Nat) (s : State) : (s.collide k).an = s.an := rfl
@[simp] theorem State.collide_er (k : Nat) (s : State) : (s.collide k).er = s.er := rfl
@[simp] theorem State.collide_tu (k : Nat) (s : State) : (s.collide k).tu = s.tu := rfl
@[simp] theorem State.collide_pm (k : Nat) (s : State) : (s.collide k).pm = s.pm := rfl
@[simp] theorem State.collide_rh (k : Nat) (s : State) : (s.collide k).rh = s.rh := rfl
@[simp] theorem State.collide_sc (k : Nat) (s : State) : (s.collide k).sc = s.sc := rfl
@[simp] theorem State.collide_pending (k : Nat) (s : State) : (s.collide k).pending = s.pending := rfl
@[simp] theorem State.collide_drawn (k : Nat) (s : State) : (s.collide k).drawn = s.drawn := rfl
@[simp] theorem State.collide_cut (k : Nat) (s : State) : (s.collide k).cut = s.cut := rfl
@[simp] theorem State.resetBlocks_hr (s : State) : (s.resetBlocks).hr = s.hr := rfl
@[simp] theorem State.resetBlocks_pending (s : State) : (s.resetBlocks).pending = s.pending := rfl
@[simp] theorem State.discardHistory_iq (s : State) : (s.discardHistory).iq = s.iq := rfl
@[simp] theorem State.discardHistory_an (s : State) : (s.discardHistory).an = s.an := rfl
@[simp] theorem State.discardHistory_er (s : State) : (s.discardHistory).er = s.er := rfl
@[simp] theorem State.discardHistory_tu (s : State) : (s.discardHistory).tu = s.tu := rfl
@[simp] theorem State.discardHistory_pm (s : State) : (s.discardHistory).pm = s.pm := rfl
@[simp] theorem State.discardHistory_lc (s : State) : (s.discardHistory).lc = s.lc := rfl
@[simp] theorem State.discardHistory_rh (s : State) : (s.discardHistory).rh = s.rh := rfl
@[simp] theorem State.discardHistory_sc (s : State) : (s.discardHistory).sc = s.sc := rfl
@[simp] theorem State.discardHistory_pending (s : State) : (s.discardHistory).pending = s.pending := rfl
@[simp] theorem State.discardHistory_drawn (s : State) : (s.discardHistory).drawn = s.drawn := rfl
@[simp] theorem State.discardHistory_cut (s : State) : (s.discardHistory).cut = s.cut := rfl
@[simp] theorem State.advance_hr (n : Nat) (s : State) : (s.advance n).hr = s.hr := by
  unfold State.advance; dsimp only; repeat' split
  all_goals simp
@[simp] theorem State.advance_cc (n : Nat) (s : State) : (s.advance n).cc = s.cc := by
  unfold State.advance; dsimp only; repeat' split
  all_goals simp
@[simp] theorem State.advance_iq (n : Nat) (s : State) : (s.advance n).iq = s.iq := by
  unfold State.advance; dsimp only; repeat' split
  all_goals simp
@[simp] theorem State.advance_an (n : Nat) (s : State) : (s.advance n).an = s.an := by
  unfold State.advance; dsimp only; repeat' split
  all_goals simp
@[simp] theorem State.advance_er (n : Nat) (s : State) : (s.advance n).er = s.er := by
  unfold State.advance; dsimp only; repeat' split
  all_goals simp
@[simp] theorem State.advance_pm (n : Nat) (s : State) : (s.advance n).pm = s.pm := by
  unfold State.advance; dsimp only; repeat' split
  all_goals simp
@[simp] theorem State.advance_lc (n : Nat) (s : State) : (s.advance n).lc = s.lc := by
  unfold State.advance; dsimp only; repeat' split
  all_goals simp
@[simp] theorem State.advance_rh (n : Nat) (s : State) : (s.advance n).rh = s.rh := by
  unfold State.advance; dsimp only; repeat' split
  all_goals simp
@[simp] theorem State.advance_sc (n : Nat) (s : State) : (s.advance n).sc = s.sc := by
  unfold State.advance; dsimp only; repeat' split
  all_goals simp
@[simp] theorem State.advance_pending (n : Nat) (s : State) : (s.advance n).pending = s.pending := by
  unfold State.advance; dsimp only; repeat' split
  all_goals simp
@[simp] theorem State.advance_drawn (n : Nat) (s : State) : (s.advance n).drawn = s.drawn := by
  unfold State.advance; dsimp only; repeat' split
  all_goals simp
@[simp] theorem State.advance_cut (n : Nat) (s : State) : (s.advance n).cut = s.cut := by
  unfold State.advance; dsimp only; repeat' split
  all_goals simp
@[simp] theorem State.advanceTo_hr (m : Nat) (s : State) : (s.advanceTo m).hr = s.hr := State.advance_hr _ _
@[simp] theorem State.advanceTo_cc (m : Nat) (s : State) : (s.advanceTo m).cc = s.cc := State.advance_cc _ _
@[simp] theorem State.advanceTo_iq (m : Nat) (s : State) : (s.advanceTo m).iq = s.iq := State.advance_iq _ _
@[simp] theorem State.advanceTo_an (m : Nat) (s : State) : (s.advanceTo m).an = s.an := State.advance_an _ _
@[simp] theorem State.advanceTo_er (m : Nat) (s : State) : (s.advanceTo m).er = s.er := State.advance_er _ _
@[simp] theorem State.advanceTo_pm (m : Nat) (s : State) : (s.advanceTo m).pm = s.pm := State.advance_pm _ _
@[simp] theorem State.advanceTo_lc (m : Nat) (s : State) : (s.advanceTo m).lc = s.lc := State.advance_lc _ _
@[simp] theorem State.advanceTo_rh (m : Nat) (s : State) : (s.advanceTo m).rh = s.rh := State.advance_rh _ _
@[simp] theorem State.advanceTo_sc (m : Nat) (s : State) : (s.advanceTo m).sc = s.sc := State.advance_sc _ _
@[simp] theorem State.advanceTo_pending (m : Nat) (s : State) : (s.advanceTo m).pending = s.pending := State.advance_pending _ _
@[simp] theorem State.advanceTo_drawn (m : Nat) (s : State) : (s.advanceTo m).drawn = s.drawn := State.advance_drawn _ _
@[simp] theorem State.advanceTo_cut (m : Nat) (s : State) : (s.advanceTo m).cut = s.cut := State.advance_cut _ _
@[simp] theorem State.freeze_iq (reason : FreezeReason) (s : State) : (s.freeze reason).iq = s.iq := by
  unfold State.freeze; dsimp only; repeat' split
  all_goals simp
@[simp] theorem State.freeze_an (reason : FreezeReason) (s : State) : (s.freeze reason).an = s.an := by
  unfold State.freeze; dsimp only; repeat' split
  all_goals simp
@[simp] theorem State.freeze_er (reason : FreezeReason) (s : State) : (s.freeze reason).er = s.er := by
  unfold State.freeze; dsimp only; repeat' split
  all_goals simp
@[simp] theorem State.freeze_tu (reason : FreezeReason) (s : State) : (s.freeze reason).tu = s.tu := by
  unfold State.freeze; dsimp only; repeat' split
  all_goals simp
@[simp] theorem State.freeze_pm (reason : FreezeReason) (s : State) : (s.freeze reason).pm = s.pm := by
  unfold State.freeze; dsimp only; repeat' split
  all_goals simp
@[simp] theorem State.freeze_lc (reason : FreezeReason) (s : State) : (s.freeze reason).lc = s.lc := by
  unfold State.freeze; dsimp only; repeat' split
  all_goals simp
@[simp] theorem State.freeze_rh (reason : FreezeReason) (s : State) : (s.freeze reason).rh = s.rh := by
  unfold State.freeze; dsimp only; repeat' split
  all_goals simp
@[simp] theorem State.freeze_sc (reason : FreezeReason) (s : State) : (s.freeze reason).sc = s.sc := by
  unfold State.freeze; dsimp only; repeat' split
  all_goals simp
@[simp] theorem State.freeze_pending (reason : FreezeReason) (s : State) : (s.freeze reason).pending = s.pending := by
  unfold State.freeze; dsimp only; repeat' split
  all_goals simp
@[simp] theorem State.freeze_drawn (reason : FreezeReason) (s : State) : (s.freeze reason).drawn = s.drawn := by
  unfold State.freeze; dsimp only; repeat' split
  all_goals simp
@[simp] theorem State.freeze_cut (reason : FreezeReason) (s : State) : (s.freeze reason).cut = s.cut := by
  unfold State.freeze; dsimp only; repeat' split
  all_goals simp
@[simp] theorem State.countPost_iq (s : State) : (s.countPost).iq = s.iq := by
  unfold State.countPost; dsimp only; repeat' split
  all_goals simp
@[simp] theorem State.countPost_an (s : State) : (s.countPost).an = s.an := by
  unfold State.countPost; dsimp only; repeat' split
  all_goals simp
@[simp] theorem State.countPost_er (s : State) : (s.countPost).er = s.er := by
  unfold State.countPost; dsimp only; repeat' split
  all_goals simp
@[simp] theorem State.countPost_tu (s : State) : (s.countPost).tu = s.tu := by
  unfold State.countPost; dsimp only; repeat' split
  all_goals simp
@[simp] theorem State.countPost_pm (s : State) : (s.countPost).pm = s.pm := by
  unfold State.countPost; dsimp only; repeat' split
  all_goals simp
@[simp] theorem State.countPost_lc (s : State) : (s.countPost).lc = s.lc := by
  unfold State.countPost; dsimp only; repeat' split
  all_goals simp
@[simp] theorem State.countPost_rh (s : State) : (s.countPost).rh = s.rh := by
  unfold State.countPost; dsimp only; repeat' split
  all_goals simp
@[simp] theorem State.countPost_sc (s : State) : (s.countPost).sc = s.sc := by
  unfold State.countPost; dsimp only; repeat' split
  all_goals simp
@[simp] theorem State.countPost_pending (s : State) : (s.countPost).pending = s.pending := by
  unfold State.countPost; dsimp only; repeat' split
  all_goals simp
@[simp] theorem State.countPost_drawn (s : State) : (s.countPost).drawn = s.drawn := by
  unfold State.countPost; dsimp only; repeat' split
  all_goals simp
@[simp] theorem State.countPost_cut (s : State) : (s.countPost).cut = s.cut := by
  unfold State.countPost; dsimp only; repeat' split
  all_goals simp
@[simp] theorem State.withdrawTrigger_hr (s : State) : (s.withdrawTrigger).hr = s.hr := by
  unfold State.withdrawTrigger; dsimp only; repeat' split
  all_goals simp
@[simp] theorem State.withdrawTrigger_iq (s : State) : (s.withdrawTrigger).iq = s.iq := by
  unfold State.withdrawTrigger; dsimp only; repeat' split
  all_goals simp
@[simp] theorem State.withdrawTrigger_an (s : State) : (s.withdrawTrigger).an = s.an := by
  unfold State.withdrawTrigger; dsimp only; repeat' split
  all_goals simp
@[simp] theorem State.withdrawTrigger_er (s : State) : (s.withdrawTrigger).er = s.er := by
  unfold State.withdrawTrigger; dsimp only; repeat' split
  all_goals simp
@[simp] theorem State.withdrawTrigger_tu (s : State) : (s.withdrawTrigger).tu = s.tu := by
  unfold State.withdrawTrigger; dsimp only; repeat' split
  all_goals simp
@[simp] theorem State.withdrawTrigger_pm (s : State) : (s.withdrawTrigger).pm = s.pm := by
  unfold State.withdrawTrigger; dsimp only; repeat' split
  all_goals simp
@[simp] theorem State.withdrawTrigger_rh (s : State) : (s.withdrawTrigger).rh = s.rh := by
  unfold State.withdrawTrigger; dsimp only; repeat' split
  all_goals simp
@[simp] theorem State.withdrawTrigger_sc (s : State) : (s.withdrawTrigger).sc = s.sc := by
  unfold State.withdrawTrigger; dsimp only; repeat' split
  all_goals simp
@[simp] theorem State.withdrawTrigger_pending (s : State) : (s.withdrawTrigger).pending = s.pending := by
  unfold State.withdrawTrigger; dsimp only; repeat' split
  all_goals simp
@[simp] theorem State.withdrawTrigger_drawn (s : State) : (s.withdrawTrigger).drawn = s.drawn := by
  unfold State.withdrawTrigger; dsimp only; repeat' split
  all_goals simp
@[simp] theorem State.withdrawTrigger_cut (s : State) : (s.withdrawTrigger).cut = s.cut := by
  unfold State.withdrawTrigger; dsimp only; repeat' split
  all_goals simp
@[simp] theorem State.endReply_hr (s : State) : (s.endReply).hr = s.hr := by
  unfold State.endReply; dsimp only; repeat' split
  all_goals simp
@[simp] theorem State.endReply_cc (s : State) : (s.endReply).cc = s.cc := by
  unfold State.endReply; dsimp only; repeat' split
  all_goals simp
@[simp] theorem State.endReply_iq (s : State) : (s.endReply).iq = s.iq := by
  unfold State.endReply; dsimp only; repeat' split
  all_goals simp
@[simp] theorem State.endReply_an (s : State) : (s.endReply).an = s.an := by
  unfold State.endReply; dsimp only; repeat' split
  all_goals simp
@[simp] theorem State.endReply_er (s : State) : (s.endReply).er = s.er := by
  unfold State.endReply; dsimp only; repeat' split
  all_goals simp
@[simp] theorem State.endReply_tu (s : State) : (s.endReply).tu = s.tu := by
  unfold State.endReply; dsimp only; repeat' split
  all_goals simp
@[simp] theorem State.endReply_pm (s : State) : (s.endReply).pm = s.pm := by
  unfold State.endReply; dsimp only; repeat' split
  all_goals simp
@[simp] theorem State.endReply_sc (s : State) : (s.endReply).sc = s.sc := by
  unfold State.endReply; dsimp only; repeat' split
  all_goals simp
@[simp] theorem State.endReply_pending (s : State) : (s.endReply).pending = s.pending := by
  unfold State.endReply; dsimp only; repeat' split
  all_goals simp
@[simp] theorem State.endReply_drawn (s : State) : (s.endReply).drawn = s.drawn := by
  unfold State.endReply; dsimp only; repeat' split
  all_goals simp
@[simp] theorem State.endReply_cut (s : State) : (s.endReply).cut = s.cut := by
  unfold State.endReply; dsimp only; repeat' split
  all_goals simp
@[simp] theorem State.placeReply_hr (kind : Byte) (payload : List Byte) (s : State) : (s.placeReply kind payload).hr = s.hr := by
  simp [State.placeReply]
@[simp] theorem State.placeReply_cc (kind : Byte) (payload : List Byte) (s : State) : (s.placeReply kind payload).cc = s.cc := by
  simp [State.placeReply]
@[simp] theorem State.placeReply_iq (kind : Byte) (payload : List Byte) (s : State) : (s.placeReply kind payload).iq = s.iq := by
  simp [State.placeReply]
@[simp] theorem State.placeReply_an (kind : Byte) (payload : List Byte) (s : State) : (s.placeReply kind payload).an = s.an := by
  simp [State.placeReply]
@[simp] theorem State.placeReply_er (kind : Byte) (payload : List Byte) (s : State) : (s.placeReply kind payload).er = s.er := by
  simp [State.placeReply]
@[simp] theorem State.placeReply_tu (kind : Byte) (payload : List Byte) (s : State) : (s.placeReply kind payload).tu = s.tu := by
  simp [State.placeReply]
@[simp] theorem State.placeReply_pm (kind : Byte) (payload : List Byte) (s : State) : (s.placeReply kind payload).pm = s.pm := by
  simp [State.placeReply]
@[simp] theorem State.placeReply_sc (kind : Byte) (payload : List Byte) (s : State) : (s.placeReply kind payload).sc = s.sc := by
  simp [State.placeReply]
@[simp] theorem State.placeReply_pending (kind : Byte) (payload : List Byte) (s : State) : (s.placeReply kind payload).pending = s.pending := by
  simp [State.placeReply]
@[simp] theorem State.placeReply_drawn (kind : Byte) (payload : List Byte) (s : State) : (s.placeReply kind payload).drawn = s.drawn := by
  simp [State.placeReply]
@[simp] theorem State.placeReply_cut (kind : Byte) (payload : List Byte) (s : State) : (s.placeReply kind payload).cut = s.cut := by
  simp [State.placeReply]
@[simp] theorem State.placeResult_hr (request : Byte) (code : ResultCode) (s : State) : (s.placeResult request code).hr = s.hr := by
  simp [State.placeResult]
@[simp] theorem State.placeResult_cc (request : Byte) (code : ResultCode) (s : State) : (s.placeResult request code).cc = s.cc := by
  simp [State.placeResult]
@[simp] theorem State.placeResult_iq (request : Byte) (code : ResultCode) (s : State) : (s.placeResult request code).iq = s.iq := by
  simp [State.placeResult]
@[simp] theorem State.placeResult_an (request : Byte) (code : ResultCode) (s : State) : (s.placeResult request code).an = s.an := by
  simp [State.placeResult]
@[simp] theorem State.placeResult_er (request : Byte) (code : ResultCode) (s : State) : (s.placeResult request code).er = s.er := by
  simp [State.placeResult]
@[simp] theorem State.placeResult_tu (request : Byte) (code : ResultCode) (s : State) : (s.placeResult request code).tu = s.tu := by
  simp [State.placeResult]
@[simp] theorem State.placeResult_pm (request : Byte) (code : ResultCode) (s : State) : (s.placeResult request code).pm = s.pm := by
  simp [State.placeResult]
@[simp] theorem State.placeResult_sc (request : Byte) (code : ResultCode) (s : State) : (s.placeResult request code).sc = s.sc := by
  simp [State.placeResult]
@[simp] theorem State.placeResult_pending (request : Byte) (code : ResultCode) (s : State) : (s.placeResult request code).pending = s.pending := by
  simp [State.placeResult]
@[simp] theorem State.placeResult_drawn (request : Byte) (code : ResultCode) (s : State) : (s.placeResult request code).drawn = s.drawn := by
  simp [State.placeResult]
@[simp] theorem State.placeResult_cut (request : Byte) (code : ResultCode) (s : State) : (s.placeResult request code).cut = s.cut := by
  simp [State.placeResult]
@[simp] theorem State.answer_hr (toAll : Bool) (request : Byte) (code : ResultCode) (s : State) : (s.answer toAll request code).hr = s.hr := by
  unfold State.answer; repeat' split
  all_goals simp
@[simp] theorem State.answer_cc (toAll : Bool) (request : Byte) (code : ResultCode) (s : State) : (s.answer toAll request code).cc = s.cc := by
  unfold State.answer; repeat' split
  all_goals simp
@[simp] theorem State.answer_iq (toAll : Bool) (request : Byte) (code : ResultCode) (s : State) : (s.answer toAll request code).iq = s.iq := by
  unfold State.answer; repeat' split
  all_goals simp
@[simp] theorem State.answer_an (toAll : Bool) (request : Byte) (code : ResultCode) (s : State) : (s.answer toAll request code).an = s.an := by
  unfold State.answer; repeat' split
  all_goals simp
@[simp] theorem State.answer_er (toAll : Bool) (request : Byte) (code : ResultCode) (s : State) : (s.answer toAll request code).er = s.er := by
  unfold State.answer; repeat' split
  all_goals simp
@[simp] theorem State.answer_tu (toAll : Bool) (request : Byte) (code : ResultCode) (s : State) : (s.answer toAll request code).tu = s.tu := by
  unfold State.answer; repeat' split
  all_goals simp
@[simp] theorem State.answer_pm (toAll : Bool) (request : Byte) (code : ResultCode) (s : State) : (s.answer toAll request code).pm = s.pm := by
  unfold State.answer; repeat' split
  all_goals simp
@[simp] theorem State.answer_sc (toAll : Bool) (request : Byte) (code : ResultCode) (s : State) : (s.answer toAll request code).sc = s.sc := by
  unfold State.answer; repeat' split
  all_goals simp
@[simp] theorem State.answer_pending (toAll : Bool) (request : Byte) (code : ResultCode) (s : State) : (s.answer toAll request code).pending = s.pending := by
  unfold State.answer; repeat' split
  all_goals simp
@[simp] theorem State.answer_drawn (toAll : Bool) (request : Byte) (code : ResultCode) (s : State) : (s.answer toAll request code).drawn = s.drawn := by
  unfold State.answer; repeat' split
  all_goals simp
@[simp] theorem State.answer_cut (toAll : Bool) (request : Byte) (code : ResultCode) (s : State) : (s.answer toAll request code).cut = s.cut := by
  unfold State.answer; repeat' split
  all_goals simp
@[simp] theorem State.loseCapture_iq (s : State) : (s.loseCapture).iq = s.iq := by
  unfold State.loseCapture; repeat' split
  all_goals simp
@[simp] theorem State.loseCapture_an (s : State) : (s.loseCapture).an = s.an := by
  unfold State.loseCapture; repeat' split
  all_goals simp
@[simp] theorem State.loseCapture_er (s : State) : (s.loseCapture).er = s.er := by
  unfold State.loseCapture; repeat' split
  all_goals simp
@[simp] theorem State.loseCapture_tu (s : State) : (s.loseCapture).tu = s.tu := by
  unfold State.loseCapture; repeat' split
  all_goals simp
@[simp] theorem State.loseCapture_pm (s : State) : (s.loseCapture).pm = s.pm := by
  unfold State.loseCapture; repeat' split
  all_goals simp
@[simp] theorem State.loseCapture_rh (s : State) : (s.loseCapture).rh = s.rh := by
  unfold State.loseCapture; repeat' split
  all_goals simp
@[simp] theorem State.loseCapture_sc (s : State) : (s.loseCapture).sc = s.sc := by
  unfold State.loseCapture; repeat' split
  all_goals simp
@[simp] theorem State.loseCapture_pending (s : State) : (s.loseCapture).pending = s.pending := by
  unfold State.loseCapture; repeat' split
  all_goals simp
@[simp] theorem State.loseCapture_drawn (s : State) : (s.loseCapture).drawn = s.drawn := by
  unfold State.loseCapture; repeat' split
  all_goals simp
@[simp] theorem State.loseCapture_cut (s : State) : (s.loseCapture).cut = s.cut := by
  unfold State.loseCapture; repeat' split
  all_goals simp
@[simp] theorem State.sequenceRestart_iq (d : Draft) (s : State) : (s.sequenceRestart d).iq = s.iq := by
  simp [State.sequenceRestart]
@[simp] theorem State.sequenceRestart_an (d : Draft) (s : State) : (s.sequenceRestart d).an = s.an := by
  simp [State.sequenceRestart]
@[simp] theorem State.sequenceRestart_er (d : Draft) (s : State) : (s.sequenceRestart d).er = s.er := by
  simp [State.sequenceRestart]
@[simp] theorem State.sequenceRestart_tu (d : Draft) (s : State) : (s.sequenceRestart d).tu = s.tu := by
  simp [State.sequenceRestart]
@[simp] theorem State.sequenceRestart_pm (d : Draft) (s : State) : (s.sequenceRestart d).pm = s.pm := by
  simp [State.sequenceRestart]
@[simp] theorem State.sequenceRestart_rh (d : Draft) (s : State) : (s.sequenceRestart d).rh = s.rh := by
  simp [State.sequenceRestart]
@[simp] theorem State.sequenceRestart_sc (d : Draft) (s : State) : (s.sequenceRestart d).sc = s.sc := by
  simp [State.sequenceRestart]
@[simp] theorem State.sequenceRestart_pending (d : Draft) (s : State) : (s.sequenceRestart d).pending = s.pending := by
  simp [State.sequenceRestart]
@[simp] theorem State.sequenceRestart_drawn (d : Draft) (s : State) : (s.sequenceRestart d).drawn = s.drawn := by
  simp [State.sequenceRestart]
@[simp] theorem State.sequenceRestart_cut (d : Draft) (s : State) : (s.sequenceRestart d).cut = s.cut := by
  simp [State.sequenceRestart]
@[simp] theorem State.write_iq (d : Draft) (s : State) : (s.write d).1.iq = s.iq := by
  unfold State.write; repeat' split
  all_goals simp
@[simp] theorem State.write_an (d : Draft) (s : State) : (s.write d).1.an = s.an := by
  unfold State.write; repeat' split
  all_goals simp
@[simp] theorem State.write_er (d : Draft) (s : State) : (s.write d).1.er = s.er := by
  unfold State.write; repeat' split
  all_goals simp
@[simp] theorem State.write_tu (d : Draft) (s : State) : (s.write d).1.tu = s.tu := by
  unfold State.write; repeat' split
  all_goals simp
@[simp] theorem State.write_pm (d : Draft) (s : State) : (s.write d).1.pm = s.pm := by
  unfold State.write; repeat' split
  all_goals simp
@[simp] theorem State.write_rh (d : Draft) (s : State) : (s.write d).1.rh = s.rh := by
  unfold State.write; repeat' split
  all_goals simp
@[simp] theorem State.write_sc (d : Draft) (s : State) : (s.write d).1.sc = s.sc := by
  unfold State.write; repeat' split
  all_goals simp
@[simp] theorem State.write_pending (d : Draft) (s : State) : (s.write d).1.pending = s.pending := by
  unfold State.write; repeat' split
  all_goals simp
@[simp] theorem State.write_drawn (d : Draft) (s : State) : (s.write d).1.drawn = s.drawn := by
  unfold State.write; repeat' split
  all_goals simp
@[simp] theorem State.write_cut (d : Draft) (s : State) : (s.write d).1.cut = s.cut := by
  unfold State.write; repeat' split
  all_goals simp
@[simp] theorem State.enterPost_iq (t : TimedTag) (cause : Cause) (s : State) : (s.enterPost t cause).iq = s.iq := by
  have h := State.write_iq (s.captureDraft .triggerMark t (.marked cause)) s
  unfold State.enterPost; dsimp only; split <;> simp_all
@[simp] theorem State.enterPost_an (t : TimedTag) (cause : Cause) (s : State) : (s.enterPost t cause).an = s.an := by
  have h := State.write_an (s.captureDraft .triggerMark t (.marked cause)) s
  unfold State.enterPost; dsimp only; split <;> simp_all
@[simp] theorem State.enterPost_er (t : TimedTag) (cause : Cause) (s : State) : (s.enterPost t cause).er = s.er := by
  have h := State.write_er (s.captureDraft .triggerMark t (.marked cause)) s
  unfold State.enterPost; dsimp only; split <;> simp_all
@[simp] theorem State.enterPost_tu (t : TimedTag) (cause : Cause) (s : State) : (s.enterPost t cause).tu = s.tu := by
  have h := State.write_tu (s.captureDraft .triggerMark t (.marked cause)) s
  unfold State.enterPost; dsimp only; split <;> simp_all
@[simp] theorem State.enterPost_pm (t : TimedTag) (cause : Cause) (s : State) : (s.enterPost t cause).pm = s.pm := by
  have h := State.write_pm (s.captureDraft .triggerMark t (.marked cause)) s
  unfold State.enterPost; dsimp only; split <;> simp_all
@[simp] theorem State.enterPost_rh (t : TimedTag) (cause : Cause) (s : State) : (s.enterPost t cause).rh = s.rh := by
  have h := State.write_rh (s.captureDraft .triggerMark t (.marked cause)) s
  unfold State.enterPost; dsimp only; split <;> simp_all
@[simp] theorem State.enterPost_sc (t : TimedTag) (cause : Cause) (s : State) : (s.enterPost t cause).sc = s.sc := by
  have h := State.write_sc (s.captureDraft .triggerMark t (.marked cause)) s
  unfold State.enterPost; dsimp only; split <;> simp_all
@[simp] theorem State.enterPost_pending (t : TimedTag) (cause : Cause) (s : State) : (s.enterPost t cause).pending = s.pending := by
  have h := State.write_pending (s.captureDraft .triggerMark t (.marked cause)) s
  unfold State.enterPost; dsimp only; split <;> simp_all
@[simp] theorem State.enterPost_drawn (t : TimedTag) (cause : Cause) (s : State) : (s.enterPost t cause).drawn = s.drawn := by
  have h := State.write_drawn (s.captureDraft .triggerMark t (.marked cause)) s
  unfold State.enterPost; dsimp only; split <;> simp_all
@[simp] theorem State.enterPost_cut (t : TimedTag) (cause : Cause) (s : State) : (s.enterPost t cause).cut = s.cut := by
  have h := State.write_cut (s.captureDraft .triggerMark t (.marked cause)) s
  unfold State.enterPost; dsimp only; split <;> simp_all
@[simp] theorem State.originate_iq (cause : Cause) (time : Nat) (s : State) : (s.originate cause time).iq = s.iq := by
  simp [State.originate]
@[simp] theorem State.originate_an (cause : Cause) (time : Nat) (s : State) : (s.originate cause time).an = s.an := by
  simp [State.originate]
@[simp] theorem State.originate_er (cause : Cause) (time : Nat) (s : State) : (s.originate cause time).er = s.er := by
  simp [State.originate]
@[simp] theorem State.originate_tu (cause : Cause) (time : Nat) (s : State) : (s.originate cause time).tu = s.tu := by
  simp [State.originate]
@[simp] theorem State.originate_pm (cause : Cause) (time : Nat) (s : State) : (s.originate cause time).pm = s.pm := by
  simp [State.originate]
@[simp] theorem State.originate_rh (cause : Cause) (time : Nat) (s : State) : (s.originate cause time).rh = s.rh := by
  simp [State.originate]
@[simp] theorem State.originate_sc (cause : Cause) (time : Nat) (s : State) : (s.originate cause time).sc = s.sc := by
  simp [State.originate]
@[simp] theorem State.originate_pending (cause : Cause) (time : Nat) (s : State) : (s.originate cause time).pending = s.pending := by
  simp [State.originate]
@[simp] theorem State.originate_drawn (cause : Cause) (time : Nat) (s : State) : (s.originate cause time).drawn = s.drawn := by
  simp [State.originate]
@[simp] theorem State.originate_cut (cause : Cause) (time : Nat) (s : State) : (s.originate cause time).cut = s.cut := by
  simp [State.originate]
@[simp] theorem State.requestTrigger_iq (cause : Cause) (time : Option Nat) (s : State) : (s.requestTrigger cause time).iq = s.iq := by
  unfold State.requestTrigger; repeat' split
  all_goals simp
@[simp] theorem State.requestTrigger_an (cause : Cause) (time : Option Nat) (s : State) : (s.requestTrigger cause time).an = s.an := by
  unfold State.requestTrigger; repeat' split
  all_goals simp
@[simp] theorem State.requestTrigger_er (cause : Cause) (time : Option Nat) (s : State) : (s.requestTrigger cause time).er = s.er := by
  unfold State.requestTrigger; repeat' split
  all_goals simp
@[simp] theorem State.requestTrigger_tu (cause : Cause) (time : Option Nat) (s : State) : (s.requestTrigger cause time).tu = s.tu := by
  unfold State.requestTrigger; repeat' split
  all_goals simp
@[simp] theorem State.requestTrigger_pm (cause : Cause) (time : Option Nat) (s : State) : (s.requestTrigger cause time).pm = s.pm := by
  unfold State.requestTrigger; repeat' split
  all_goals simp
@[simp] theorem State.requestTrigger_rh (cause : Cause) (time : Option Nat) (s : State) : (s.requestTrigger cause time).rh = s.rh := by
  unfold State.requestTrigger; repeat' split
  all_goals simp
@[simp] theorem State.requestTrigger_sc (cause : Cause) (time : Option Nat) (s : State) : (s.requestTrigger cause time).sc = s.sc := by
  unfold State.requestTrigger; repeat' split
  all_goals simp
@[simp] theorem State.requestTrigger_pending (cause : Cause) (time : Option Nat) (s : State) : (s.requestTrigger cause time).pending = s.pending := by
  unfold State.requestTrigger; repeat' split
  all_goals simp
@[simp] theorem State.requestTrigger_drawn (cause : Cause) (time : Option Nat) (s : State) : (s.requestTrigger cause time).drawn = s.drawn := by
  unfold State.requestTrigger; repeat' split
  all_goals simp
@[simp] theorem State.requestTrigger_cut (cause : Cause) (time : Option Nat) (s : State) : (s.requestTrigger cause time).cut = s.cut := by
  unfold State.requestTrigger; repeat' split
  all_goals simp
@[simp] theorem State.writeSeen_iq (inPost room : Bool) (z : TimedTag) (adopted : Bool) (s : State) : (s.writeSeen inPost room z adopted).iq = s.iq := by
  unfold State.writeSeen; repeat' split
  all_goals simp
@[simp] theorem State.writeSeen_an (inPost room : Bool) (z : TimedTag) (adopted : Bool) (s : State) : (s.writeSeen inPost room z adopted).an = s.an := by
  unfold State.writeSeen; repeat' split
  all_goals simp
@[simp] theorem State.writeSeen_er (inPost room : Bool) (z : TimedTag) (adopted : Bool) (s : State) : (s.writeSeen inPost room z adopted).er = s.er := by
  unfold State.writeSeen; repeat' split
  all_goals simp
@[simp] theorem State.writeSeen_tu (inPost room : Bool) (z : TimedTag) (adopted : Bool) (s : State) : (s.writeSeen inPost room z adopted).tu = s.tu := by
  unfold State.writeSeen; repeat' split
  all_goals simp
@[simp] theorem State.writeSeen_pm (inPost room : Bool) (z : TimedTag) (adopted : Bool) (s : State) : (s.writeSeen inPost room z adopted).pm = s.pm := by
  unfold State.writeSeen; repeat' split
  all_goals simp
@[simp] theorem State.writeSeen_rh (inPost room : Bool) (z : TimedTag) (adopted : Bool) (s : State) : (s.writeSeen inPost room z adopted).rh = s.rh := by
  unfold State.writeSeen; repeat' split
  all_goals simp
@[simp] theorem State.writeSeen_sc (inPost room : Bool) (z : TimedTag) (adopted : Bool) (s : State) : (s.writeSeen inPost room z adopted).sc = s.sc := by
  unfold State.writeSeen; repeat' split
  all_goals simp
@[simp] theorem State.writeSeen_pending (inPost room : Bool) (z : TimedTag) (adopted : Bool) (s : State) : (s.writeSeen inPost room z adopted).pending = s.pending := by
  unfold State.writeSeen; repeat' split
  all_goals simp
@[simp] theorem State.writeSeen_drawn (inPost room : Bool) (z : TimedTag) (adopted : Bool) (s : State) : (s.writeSeen inPost room z adopted).drawn = s.drawn := by
  unfold State.writeSeen; repeat' split
  all_goals simp
@[simp] theorem State.writeSeen_cut (inPost room : Bool) (z : TimedTag) (adopted : Bool) (s : State) : (s.writeSeen inPost room z adopted).cut = s.cut := by
  unfold State.writeSeen; repeat' split
  all_goals simp
@[simp] theorem State.compare_iq (z : TimedTag) (s : State) : (s.compare z).iq = s.iq := by
  unfold State.compare; dsimp only; repeat' split
  all_goals simp
@[simp] theorem State.compare_an (z : TimedTag) (s : State) : (s.compare z).an = s.an := by
  unfold State.compare; dsimp only; repeat' split
  all_goals simp
@[simp] theorem State.compare_er (z : TimedTag) (s : State) : (s.compare z).er = s.er := by
  unfold State.compare; dsimp only; repeat' split
  all_goals simp
@[simp] theorem State.compare_tu (z : TimedTag) (s : State) : (s.compare z).tu = s.tu := by
  unfold State.compare; dsimp only; repeat' split
  all_goals simp
@[simp] theorem State.compare_pm (z : TimedTag) (s : State) : (s.compare z).pm = s.pm := by
  unfold State.compare; dsimp only; repeat' split
  all_goals simp
@[simp] theorem State.compare_rh (z : TimedTag) (s : State) : (s.compare z).rh = s.rh := by
  unfold State.compare; dsimp only; repeat' split
  all_goals simp
@[simp] theorem State.compare_sc (z : TimedTag) (s : State) : (s.compare z).sc = s.sc := by
  unfold State.compare; dsimp only; repeat' split
  all_goals simp
@[simp] theorem State.compare_pending (z : TimedTag) (s : State) : (s.compare z).pending = s.pending := by
  unfold State.compare; dsimp only; repeat' split
  all_goals simp
@[simp] theorem State.compare_drawn (z : TimedTag) (s : State) : (s.compare z).drawn = s.drawn := by
  unfold State.compare; dsimp only; repeat' split
  all_goals simp
@[simp] theorem State.compare_cut (z : TimedTag) (s : State) : (s.compare z).cut = s.cut := by
  unfold State.compare; dsimp only; repeat' split
  all_goals simp
@[simp] theorem State.takeTrigger_iq (z : TimedTag) (s : State) : (s.takeTrigger z).iq = s.iq := by
  unfold State.takeTrigger; repeat' split
  all_goals simp
@[simp] theorem State.takeTrigger_an (z : TimedTag) (s : State) : (s.takeTrigger z).an = s.an := by
  unfold State.takeTrigger; repeat' split
  all_goals simp
@[simp] theorem State.takeTrigger_er (z : TimedTag) (s : State) : (s.takeTrigger z).er = s.er := by
  unfold State.takeTrigger; repeat' split
  all_goals simp
@[simp] theorem State.takeTrigger_tu (z : TimedTag) (s : State) : (s.takeTrigger z).tu = s.tu := by
  unfold State.takeTrigger; repeat' split
  all_goals simp
@[simp] theorem State.takeTrigger_pm (z : TimedTag) (s : State) : (s.takeTrigger z).pm = s.pm := by
  unfold State.takeTrigger; repeat' split
  all_goals simp
@[simp] theorem State.takeTrigger_rh (z : TimedTag) (s : State) : (s.takeTrigger z).rh = s.rh := by
  unfold State.takeTrigger; repeat' split
  all_goals simp
@[simp] theorem State.takeTrigger_sc (z : TimedTag) (s : State) : (s.takeTrigger z).sc = s.sc := by
  unfold State.takeTrigger; repeat' split
  all_goals simp
@[simp] theorem State.takeTrigger_pending (z : TimedTag) (s : State) : (s.takeTrigger z).pending = s.pending := by
  unfold State.takeTrigger; repeat' split
  all_goals simp
@[simp] theorem State.takeTrigger_drawn (z : TimedTag) (s : State) : (s.takeTrigger z).drawn = s.drawn := by
  unfold State.takeTrigger; repeat' split
  all_goals simp
@[simp] theorem State.takeTrigger_cut (z : TimedTag) (s : State) : (s.takeTrigger z).cut = s.cut := by
  unfold State.takeTrigger; repeat' split
  all_goals simp
@[simp] theorem State.takeGossip_iq (code : CaptureCode) (tag : Option TimedTag) (s : State) : (s.takeGossip code tag).iq = s.iq := by
  unfold State.takeGossip; repeat' split
  all_goals simp
@[simp] theorem State.takeGossip_an (code : CaptureCode) (tag : Option TimedTag) (s : State) : (s.takeGossip code tag).an = s.an := by
  unfold State.takeGossip; repeat' split
  all_goals simp
@[simp] theorem State.takeGossip_er (code : CaptureCode) (tag : Option TimedTag) (s : State) : (s.takeGossip code tag).er = s.er := by
  unfold State.takeGossip; repeat' split
  all_goals simp
@[simp] theorem State.takeGossip_tu (code : CaptureCode) (tag : Option TimedTag) (s : State) : (s.takeGossip code tag).tu = s.tu := by
  unfold State.takeGossip; repeat' split
  all_goals simp
@[simp] theorem State.takeGossip_pm (code : CaptureCode) (tag : Option TimedTag) (s : State) : (s.takeGossip code tag).pm = s.pm := by
  unfold State.takeGossip; repeat' split
  all_goals simp
@[simp] theorem State.takeGossip_rh (code : CaptureCode) (tag : Option TimedTag) (s : State) : (s.takeGossip code tag).rh = s.rh := by
  unfold State.takeGossip; repeat' split
  all_goals simp
@[simp] theorem State.takeGossip_sc (code : CaptureCode) (tag : Option TimedTag) (s : State) : (s.takeGossip code tag).sc = s.sc := by
  unfold State.takeGossip; repeat' split
  all_goals simp
@[simp] theorem State.takeGossip_pending (code : CaptureCode) (tag : Option TimedTag) (s : State) : (s.takeGossip code tag).pending = s.pending := by
  unfold State.takeGossip; repeat' split
  all_goals simp
@[simp] theorem State.takeGossip_drawn (code : CaptureCode) (tag : Option TimedTag) (s : State) : (s.takeGossip code tag).drawn = s.drawn := by
  unfold State.takeGossip; repeat' split
  all_goals simp
@[simp] theorem State.takeGossip_cut (code : CaptureCode) (tag : Option TimedTag) (s : State) : (s.takeGossip code tag).cut = s.cut := by
  unfold State.takeGossip; repeat' split
  all_goals simp
@[simp] theorem State.release_iq (reason : ReleaseReason) (s : State) : (s.release reason).iq = s.iq := by
  unfold State.release; dsimp only; repeat' split
  all_goals simp
@[simp] theorem State.release_an (reason : ReleaseReason) (s : State) : (s.release reason).an = s.an := by
  unfold State.release; dsimp only; repeat' split
  all_goals simp
@[simp] theorem State.release_er (reason : ReleaseReason) (s : State) : (s.release reason).er = s.er := by
  unfold State.release; dsimp only; repeat' split
  all_goals simp
@[simp] theorem State.release_tu (reason : ReleaseReason) (s : State) : (s.release reason).tu = s.tu := by
  unfold State.release; dsimp only; repeat' split
  all_goals simp
@[simp] theorem State.release_pm (reason : ReleaseReason) (s : State) : (s.release reason).pm = s.pm := by
  unfold State.release; dsimp only; repeat' split
  all_goals simp
@[simp] theorem State.release_rh (reason : ReleaseReason) (s : State) : (s.release reason).rh = s.rh := by
  unfold State.release; dsimp only; repeat' split
  all_goals simp
@[simp] theorem State.release_sc (reason : ReleaseReason) (s : State) : (s.release reason).sc = s.sc := by
  unfold State.release; repeat' split
  all_goals simp
@[simp] theorem State.release_pending (reason : ReleaseReason) (s : State) : (s.release reason).pending = s.pending := by
  unfold State.release; repeat' split
  all_goals simp
@[simp] theorem State.release_drawn (reason : ReleaseReason) (s : State) : (s.release reason).drawn = s.drawn := by
  unfold State.release; repeat' split
  all_goals simp
@[simp] theorem State.release_cut (reason : ReleaseReason) (s : State) : (s.release reason).cut = s.cut := by
  unfold State.release; repeat' split
  all_goals simp
@[simp] theorem State.writeStep_iq (e : LocalEvent) (s : State) : (s.writeStep e).1.iq = s.iq := by
  have h := State.write_iq (s.ownDraft e.time e.kind e.subject e.value none) s
  unfold State.writeStep; repeat' split
  all_goals simp_all
@[simp] theorem State.writeStep_an (e : LocalEvent) (s : State) : (s.writeStep e).1.an = s.an := by
  have h := State.write_an (s.ownDraft e.time e.kind e.subject e.value none) s
  unfold State.writeStep; repeat' split
  all_goals simp_all
@[simp] theorem State.writeStep_er (e : LocalEvent) (s : State) : (s.writeStep e).1.er = s.er := by
  have h := State.write_er (s.ownDraft e.time e.kind e.subject e.value none) s
  unfold State.writeStep; repeat' split
  all_goals simp_all
@[simp] theorem State.writeStep_tu (e : LocalEvent) (s : State) : (s.writeStep e).1.tu = s.tu := by
  have h := State.write_tu (s.ownDraft e.time e.kind e.subject e.value none) s
  unfold State.writeStep; repeat' split
  all_goals simp_all
@[simp] theorem State.writeStep_pm (e : LocalEvent) (s : State) : (s.writeStep e).1.pm = s.pm := by
  have h := State.write_pm (s.ownDraft e.time e.kind e.subject e.value none) s
  unfold State.writeStep; repeat' split
  all_goals simp_all
@[simp] theorem State.writeStep_rh (e : LocalEvent) (s : State) : (s.writeStep e).1.rh = s.rh := by
  have h := State.write_rh (s.ownDraft e.time e.kind e.subject e.value none) s
  unfold State.writeStep; repeat' split
  all_goals simp_all
@[simp] theorem State.writeStep_sc (e : LocalEvent) (s : State) : (s.writeStep e).1.sc = s.sc := by
  have h := State.write_sc (s.ownDraft e.time e.kind e.subject e.value none) s
  unfold State.writeStep; repeat' split
  all_goals simp_all
@[simp] theorem State.writeStep_pending (e : LocalEvent) (s : State) : (s.writeStep e).1.pending = s.pending := by
  have h := State.write_pending (s.ownDraft e.time e.kind e.subject e.value none) s
  unfold State.writeStep; repeat' split
  all_goals simp_all
@[simp] theorem State.writeStep_drawn (e : LocalEvent) (s : State) : (s.writeStep e).1.drawn = s.drawn := by
  have h := State.write_drawn (s.ownDraft e.time e.kind e.subject e.value none) s
  unfold State.writeStep; repeat' split
  all_goals simp_all
@[simp] theorem State.writeStep_cut (e : LocalEvent) (s : State) : (s.writeStep e).1.cut = s.cut := by
  have h := State.write_cut (s.ownDraft e.time e.kind e.subject e.value none) s
  unfold State.writeStep; repeat' split
  all_goals simp_all
@[simp] theorem State.announceStep_hr (e : LocalEvent) (q : Option Nat) (s : State) : (s.announceStep e q).hr = s.hr := by
  unfold State.announceStep; repeat' split
  all_goals simp
@[simp] theorem State.announceStep_cc (e : LocalEvent) (q : Option Nat) (s : State) : (s.announceStep e q).cc = s.cc := by
  unfold State.announceStep; dsimp only; repeat' split
  all_goals simp
@[simp] theorem State.announceStep_iq (e : LocalEvent) (q : Option Nat) (s : State) : (s.announceStep e q).iq = s.iq := by
  unfold State.announceStep; dsimp only; repeat' split
  all_goals simp
@[simp] theorem State.announceStep_an (e : LocalEvent) (q : Option Nat) (s : State) : (s.announceStep e q).an = s.an := by
  unfold State.announceStep; dsimp only; repeat' split
  all_goals simp
@[simp] theorem State.announceStep_tu (e : LocalEvent) (q : Option Nat) (s : State) : (s.announceStep e q).tu = s.tu := by
  unfold State.announceStep; dsimp only; repeat' split
  all_goals simp
@[simp] theorem State.announceStep_pm (e : LocalEvent) (q : Option Nat) (s : State) : (s.announceStep e q).pm = s.pm := by
  unfold State.announceStep; dsimp only; repeat' split
  all_goals simp
@[simp] theorem State.announceStep_lc (e : LocalEvent) (q : Option Nat) (s : State) : (s.announceStep e q).lc = s.lc := by
  unfold State.announceStep; dsimp only; repeat' split
  all_goals simp
@[simp] theorem State.announceStep_rh (e : LocalEvent) (q : Option Nat) (s : State) : (s.announceStep e q).rh = s.rh := by
  unfold State.announceStep; dsimp only; repeat' split
  all_goals simp
@[simp] theorem State.announceStep_sc (e : LocalEvent) (q : Option Nat) (s : State) : (s.announceStep e q).sc = s.sc := by
  unfold State.announceStep; dsimp only; repeat' split
  all_goals simp
@[simp] theorem State.announceStep_pending (e : LocalEvent) (q : Option Nat) (s : State) : (s.announceStep e q).pending = s.pending := by
  unfold State.announceStep; dsimp only; repeat' split
  all_goals simp
@[simp] theorem State.announceStep_drawn (e : LocalEvent) (q : Option Nat) (s : State) : (s.announceStep e q).drawn = s.drawn := by
  unfold State.announceStep; dsimp only; repeat' split
  all_goals simp
@[simp] theorem State.announceStep_cut (e : LocalEvent) (q : Option Nat) (s : State) : (s.announceStep e q).cut = s.cut := by
  unfold State.announceStep; dsimp only; repeat' split
  all_goals simp
@[simp] theorem State.triggerStep_iq (e : LocalEvent) (s : State) : (s.triggerStep e).iq = s.iq := by
  unfold State.triggerStep; repeat' split
  all_goals simp
@[simp] theorem State.triggerStep_an (e : LocalEvent) (s : State) : (s.triggerStep e).an = s.an := by
  unfold State.triggerStep; repeat' split
  all_goals simp
@[simp] theorem State.triggerStep_er (e : LocalEvent) (s : State) : (s.triggerStep e).er = s.er := by
  unfold State.triggerStep; repeat' split
  all_goals simp
@[simp] theorem State.triggerStep_tu (e : LocalEvent) (s : State) : (s.triggerStep e).tu = s.tu := by
  unfold State.triggerStep; repeat' split
  all_goals simp
@[simp] theorem State.triggerStep_pm (e : LocalEvent) (s : State) : (s.triggerStep e).pm = s.pm := by
  unfold State.triggerStep; repeat' split
  all_goals simp
@[simp] theorem State.triggerStep_rh (e : LocalEvent) (s : State) : (s.triggerStep e).rh = s.rh := by
  unfold State.triggerStep; repeat' split
  all_goals simp
@[simp] theorem State.triggerStep_sc (e : LocalEvent) (s : State) : (s.triggerStep e).sc = s.sc := by
  unfold State.triggerStep; repeat' split
  all_goals simp
@[simp] theorem State.triggerStep_pending (e : LocalEvent) (s : State) : (s.triggerStep e).pending = s.pending := by
  unfold State.triggerStep; repeat' split
  all_goals simp
@[simp] theorem State.triggerStep_drawn (e : LocalEvent) (s : State) : (s.triggerStep e).drawn = s.drawn := by
  unfold State.triggerStep; repeat' split
  all_goals simp
@[simp] theorem State.triggerStep_cut (e : LocalEvent) (s : State) : (s.triggerStep e).cut = s.cut := by
  unfold State.triggerStep; repeat' split
  all_goals simp
@[simp] theorem State.handleEvent_iq (e : LocalEvent) (s : State) : (s.handleEvent e).iq = s.iq := by
  simp [State.handleEvent]
@[simp] theorem State.handleEvent_an (e : LocalEvent) (s : State) : (s.handleEvent e).an = s.an := by
  simp [State.handleEvent]
@[simp] theorem State.handleEvent_tu (e : LocalEvent) (s : State) : (s.handleEvent e).tu = s.tu := by
  simp [State.handleEvent]
@[simp] theorem State.handleEvent_pm (e : LocalEvent) (s : State) : (s.handleEvent e).pm = s.pm := by
  simp [State.handleEvent]
@[simp] theorem State.handleEvent_rh (e : LocalEvent) (s : State) : (s.handleEvent e).rh = s.rh := by
  simp [State.handleEvent]
@[simp] theorem State.handleEvent_pending (e : LocalEvent) (s : State) : (s.handleEvent e).pending = s.pending := by
  simp [State.handleEvent]
@[simp] theorem State.handleEvent_drawn (e : LocalEvent) (s : State) : (s.handleEvent e).drawn = s.drawn := by
  simp [State.handleEvent]
@[simp] theorem State.handleEvent_sc (e : LocalEvent) (s : State) : (s.handleEvent e).sc = s.sc := by
  simp [State.handleEvent]
@[simp] theorem State.handleEvent_cut (e : LocalEvent) (s : State) : (s.handleEvent e).cut = s.cut := by
  simp [State.handleEvent]
@[simp] theorem State.strike_hr (s : State) : s.strike.hr = s.hr := rfl
@[simp] theorem State.strike_cc (s : State) : s.strike.cc = s.cc := rfl
@[simp] theorem State.strike_iq (s : State) : s.strike.iq = s.iq := rfl
@[simp] theorem State.strike_an (s : State) : s.strike.an = s.an := rfl
@[simp] theorem State.strike_er (s : State) : s.strike.er = s.er := rfl
@[simp] theorem State.strike_tu (s : State) : s.strike.tu = s.tu := rfl
@[simp] theorem State.strike_pm (s : State) : s.strike.pm = s.pm := rfl
@[simp] theorem State.strike_lc (s : State) : s.strike.lc = s.lc := rfl
@[simp] theorem State.strike_rh (s : State) : s.strike.rh = s.rh := rfl
@[simp] theorem State.strike_drawn (s : State) : s.strike.drawn = s.drawn := rfl
@[simp] theorem State.strike_pending (s : State) : s.strike.pending = s.pending := rfl

/-! ## Passing a point of a step -/

/-- Where no reset strikes, a point changes nothing. -/
theorem State.passPoint_uncut {s : State} (h : s.cut = none) : s.passPoint = s := by
  unfold State.passPoint; rw [h]

@[simp] theorem State.passPoint_hr (s : State) : s.passPoint.hr = s.hr := by
  unfold State.passPoint; split <;> rfl
@[simp] theorem State.passPoint_cc (s : State) : s.passPoint.cc = s.cc := by
  unfold State.passPoint; split <;> rfl
@[simp] theorem State.passPoint_iq (s : State) : s.passPoint.iq = s.iq := by
  unfold State.passPoint; split <;> rfl
@[simp] theorem State.passPoint_an (s : State) : s.passPoint.an = s.an := by
  unfold State.passPoint; split <;> rfl
@[simp] theorem State.passPoint_er (s : State) : s.passPoint.er = s.er := by
  unfold State.passPoint; split <;> rfl
@[simp] theorem State.passPoint_tu (s : State) : s.passPoint.tu = s.tu := by
  unfold State.passPoint; split <;> rfl
@[simp] theorem State.passPoint_pm (s : State) : s.passPoint.pm = s.pm := by
  unfold State.passPoint; split <;> rfl
@[simp] theorem State.passPoint_lc (s : State) : s.passPoint.lc = s.lc := by
  unfold State.passPoint; split <;> rfl
@[simp] theorem State.passPoint_rh (s : State) : s.passPoint.rh = s.rh := by
  unfold State.passPoint; split <;> rfl
@[simp] theorem State.passPoint_drawn (s : State) : s.passPoint.drawn = s.drawn := by
  unfold State.passPoint; split <;> rfl
@[simp] theorem State.passPoint_pending (s : State) : s.passPoint.pending = s.pending := by
  unfold State.passPoint; split <;> rfl
@[simp] theorem State.passPoint_straps (s : State) : s.passPoint.sc.straps = s.sc.straps := by
  unfold State.passPoint; split <;> rfl
@[simp] theorem State.passPoint_config (s : State) : s.passPoint.sc.config = s.sc.config := by
  unfold State.passPoint; split <;> rfl
@[simp] theorem State.passPoint_conditions (s : State) : s.passPoint.sc.conditions = s.sc.conditions := by
  unfold State.passPoint; split <;> rfl
@[simp] theorem State.passPoint_supply (s : State) : s.passPoint.sc.supply = s.sc.supply := by
  unfold State.passPoint; split <;> rfl
@[simp] theorem State.passPoint_resetHeld (s : State) : s.passPoint.sc.resetHeld = s.sc.resetHeld := by
  unfold State.passPoint; split <;> rfl
@[simp] theorem State.emit_iq (e : LocalEvent) (s : State) : (s.emit e).iq = s.iq := by
  unfold State.emit; repeat' split
  all_goals simp
@[simp] theorem State.emit_an (e : LocalEvent) (s : State) : (s.emit e).an = s.an := by
  unfold State.emit; repeat' split
  all_goals simp
@[simp] theorem State.emit_tu (e : LocalEvent) (s : State) : (s.emit e).tu = s.tu := by
  unfold State.emit; repeat' split
  all_goals simp
@[simp] theorem State.emit_pm (e : LocalEvent) (s : State) : (s.emit e).pm = s.pm := by
  unfold State.emit; repeat' split
  all_goals simp
@[simp] theorem State.emit_rh (e : LocalEvent) (s : State) : (s.emit e).rh = s.rh := by
  unfold State.emit; repeat' split
  all_goals simp
@[simp] theorem State.emit_pending (e : LocalEvent) (s : State) : (s.emit e).pending = s.pending := by
  unfold State.emit; repeat' split
  all_goals simp
@[simp] theorem State.emit_drawn (e : LocalEvent) (s : State) : (s.emit e).drawn = s.drawn := by
  unfold State.emit; repeat' split
  all_goals simp
@[simp] theorem State.captureAtRunning_iq (s : State) : (s.captureAtRunning).iq = s.iq := by
  unfold State.captureAtRunning; dsimp only; repeat' split
  all_goals simp
@[simp] theorem State.captureAtRunning_an (s : State) : (s.captureAtRunning).an = s.an := by
  unfold State.captureAtRunning; dsimp only; repeat' split
  all_goals simp
@[simp] theorem State.captureAtRunning_er (s : State) : (s.captureAtRunning).er = s.er := by
  unfold State.captureAtRunning; dsimp only; repeat' split
  all_goals simp
@[simp] theorem State.captureAtRunning_tu (s : State) : (s.captureAtRunning).tu = s.tu := by
  unfold State.captureAtRunning; dsimp only; repeat' split
  all_goals simp
@[simp] theorem State.captureAtRunning_pm (s : State) : (s.captureAtRunning).pm = s.pm := by
  unfold State.captureAtRunning; dsimp only; repeat' split
  all_goals simp
@[simp] theorem State.captureAtRunning_lc (s : State) : (s.captureAtRunning).lc = s.lc := by
  unfold State.captureAtRunning; dsimp only; repeat' split
  all_goals simp
@[simp] theorem State.captureAtRunning_rh (s : State) : (s.captureAtRunning).rh = s.rh := by
  unfold State.captureAtRunning; dsimp only; repeat' split
  all_goals simp
@[simp] theorem State.captureAtRunning_sc (s : State) : (s.captureAtRunning).sc = s.sc := by
  unfold State.captureAtRunning; dsimp only; repeat' split
  all_goals simp
@[simp] theorem State.captureAtRunning_pending (s : State) : (s.captureAtRunning).pending = s.pending := by
  unfold State.captureAtRunning; dsimp only; repeat' split
  all_goals simp
@[simp] theorem State.captureAtRunning_drawn (s : State) : (s.captureAtRunning).drawn = s.drawn := by
  unfold State.captureAtRunning; dsimp only; repeat' split
  all_goals simp
@[simp] theorem State.captureAtRunning_cut (s : State) : (s.captureAtRunning).cut = s.cut := by
  unfold State.captureAtRunning; dsimp only; repeat' split
  all_goals simp
@[simp] theorem State.writeHeard_iq (d : Draft) (s : State) : (s.writeHeard d).iq = s.iq := by
  unfold State.writeHeard; split <;> simp
@[simp] theorem State.writeHeard_an (d : Draft) (s : State) : (s.writeHeard d).an = s.an := by
  unfold State.writeHeard; split <;> simp
@[simp] theorem State.writeHeard_er (d : Draft) (s : State) : (s.writeHeard d).er = s.er := by
  unfold State.writeHeard; split <;> simp
@[simp] theorem State.writeHeard_tu (d : Draft) (s : State) : (s.writeHeard d).tu = s.tu := by
  unfold State.writeHeard; split <;> simp
@[simp] theorem State.writeHeard_pm (d : Draft) (s : State) : (s.writeHeard d).pm = s.pm := by
  unfold State.writeHeard; split <;> simp
@[simp] theorem State.writeHeard_rh (d : Draft) (s : State) : (s.writeHeard d).rh = s.rh := by
  unfold State.writeHeard; split <;> simp
@[simp] theorem State.writeHeard_pending (d : Draft) (s : State) : (s.writeHeard d).pending = s.pending := by
  unfold State.writeHeard; split <;> simp
@[simp] theorem State.writeHeard_drawn (d : Draft) (s : State) : (s.writeHeard d).drawn = s.drawn := by
  unfold State.writeHeard; split <;> simp
/-- Where no reset strikes, a heard record is written and nothing else. -/
theorem State.writeHeard_uncut (d : Draft) {s : State} (h : s.cut = none) :
    s.writeHeard d = if s.station.heardMask.getLsbD d.kind.class then (s.write d).1 else s := by
  unfold State.writeHeard; rw [State.passPoint_uncut (by simpa using h)]
theorem State.writeHeard_sc (d : Draft) {s : State} (h : s.cut = none) : (s.writeHeard d).sc = s.sc := by
  rw [State.writeHeard_uncut d h]; split <;> simp
theorem State.writeHeard_cut (d : Draft) {s : State} (h : s.cut = none) : (s.writeHeard d).cut = none := by
  rw [State.writeHeard_uncut d h]; split <;> simp [h]

/-! ## An event leaves the straps, the configuration and the conditions as they are, struck or not -/

@[simp] theorem State.emit_straps (e : LocalEvent) (s : State) : (s.emit e).sc.straps = s.sc.straps := by
  unfold State.emit; repeat' split
  all_goals simp [State.strike]
@[simp] theorem State.emit_config (e : LocalEvent) (s : State) : (s.emit e).sc.config = s.sc.config := by
  unfold State.emit; repeat' split
  all_goals simp [State.strike]
@[simp] theorem State.emit_conditions (e : LocalEvent) (s : State) : (s.emit e).sc.conditions = s.sc.conditions := by
  unfold State.emit; repeat' split
  all_goals simp [State.strike]
@[simp] theorem State.emit_supply (e : LocalEvent) (s : State) : (s.emit e).sc.supply = s.sc.supply := by
  unfold State.emit; repeat' split
  all_goals simp [State.strike]
@[simp] theorem State.emit_resetHeld (e : LocalEvent) (s : State) : (s.emit e).sc.resetHeld = s.sc.resetHeld := by
  unfold State.emit; repeat' split
  all_goals simp [State.strike]

/-- Where no reset strikes, an event leaves the Start-up Controller as it is. -/
theorem State.emit_sc (e : LocalEvent) {s : State} (h : s.cut = none) : (s.emit e).sc = s.sc := by
  unfold State.emit; rw [h]; split <;> simp

end Sys2Proof.Machine
end

