-- ==== Sys2Proof/Laws/Frames.lean ====
section
/-!
SUPPORT. The end of a reception and the taking of a request, case by case (R137 to R140, R147).
-/

namespace Sys2Proof.Machine

/-- The own address depends on the straps alone (R167). -/
theorem State.addressByte_of_straps {s t : State} (h : t.sc.straps = s.sc.straps) : t.addressByte = s.addressByte := by
  simp [State.addressByte, State.address, h]

/-- Presence leaves the straps as they are (R114). -/
theorem State.peerHeard_straps (a : Nat) (s : State) : (s.peerHeard a).sc.straps = s.sc.straps := by
  simp only [State.peerHeard]; split
  · rfl
  · split <;> simp

/-- A valid frame after a start delimiter is taken with the receive stamp (R138). -/
theorem State.receive_valid {s : State} {stamp : Nat} {f : Frame} (take : Nat → State → State)
    (h : s.lc.line = .receiving (some stamp)) (hf : f.broken = false) :
    s.receive f take = take stamp s.acceptReception := by
  simp only [State.receive, h, hf]; simp

/-- A frame that R138 calls broken ends its reception broken. -/
theorem State.receive_broken {s : State} {stamp : Option Nat} {f : Frame} (take : Nat → State → State)
    (h : s.lc.line = .receiving stamp) (hf : f.broken = true ∨ stamp = none) :
    s.receive f take = s.breakReception := by
  cases stamp with
  | none => simp only [State.receive, h]
  | some k =>
    rcases hf with hf | hf
    · simp only [State.receive, h, hf]; simp
    · cases hf

/-- A request of an allowed length to a destination other than 0 is a valid frame (R138). -/
theorem requestFrame_valid {kind dst : Byte} {p : List Byte} (h : lengthAllowed kind p.length = true) (hd : dst ≠ 0#8)
    (hp : p.length ≤ 64) : (requestFrame kind dst p).broken = false := by
  simp [requestFrame, Frame.broken, h, hd, show ¬64 < p.length by omega]

/-- An addressed request is taken; any other one is ignored (R147). -/
theorem State.takeAddressed_eq (s : State) (dst : Byte) (take : State → State) :
    State.takeAddressed dst take s = if dst = s.addressByte ∧ s.rh.restartOwed = false then take s else s := rfl

/-- A request that a broadcast brings too, addressed to this station or to all (R147). -/
theorem State.takeEither_eq {s : State} {dst : Byte} (take : Bool → State → State) (h : s.rh.restartOwed = false)
    (hd : dst = s.addressByte ∧ dst ≠ 31#8 ∨ dst = 31#8) :
    State.takeEither dst take s = take (dst == 31#8) s := by
  simp only [State.takeEither, h]
  rcases hd with ⟨a, c⟩ | a
  · have : (dst == 31#8) = false := by simpa using c
    simp [broadcast, c, a.symm, this]
  · simp [broadcast, a]

/-- While a restart is owed every request is ignored (R163). -/
theorem State.take_owed {s : State} (h : s.rh.restartOwed = true) (dst : Byte) (a : State → State)
    (e : Bool → State → State) : State.takeAddressed dst a s = s ∧ State.takeEither dst e s = s := by
  simp [State.takeAddressed, State.takeEither, h]

end Sys2Proof.Machine
end

