-- ==== Sys2Proof/Laws/Queue.lean ====
section
/-!
SUPPORT. The operations of the families leave the queue of waiting commands as it is.
-/

namespace Sys2Proof.Machine

theorem State.enterRunning_pending (s : State) (l) : (State.enterRunning l s).pending = s.pending := by
  simp only [State.enterRunning]; repeat' split
  all_goals simp

theorem State.leaveStarting_pending (s : State) (l) : (State.leaveStarting l s).pending = s.pending := by
  simp only [State.leaveStarting]; repeat' split
  all_goals simp [State.enterRunning_pending, State.startReceiver]

theorem State.restore_pending (s : State) : (State.restore s).pending = s.pending := by
  simp only [State.restore]; repeat' split
  all_goals simp [State.discardHistory, State.cutShort]
  split <;> simp

theorem State.fallBelowWarning_pending (s : State) : (State.fallBelowWarning s).pending = s.pending := by
  simp only [State.fallBelowWarning]; repeat' split
  all_goals simp

theorem State.readStraps_pending (s : State) (x) : (State.readStraps x s).pending = s.pending := by
  simp only [State.readStraps]; repeat' split
  all_goals simp

theorem State.supplyMoment_pending (s : State) (m) : (State.supplyMoment s m).pending = s.pending := by
  cases m <;>
    simp only [State.supplyMoment, State.riseAboveHysteresis, State.dipBelowHysteresis, State.supplyRestored,
      State.fallBelowWarning_pending]
  all_goals repeat' split
  all_goals simp

theorem State.foldl_supplyMoment_pending (l : List SupplyMoment) (s : State) :
    (l.foldl State.supplyMoment s).pending = s.pending := by
  induction l generalizing s with
  | nil => rfl
  | cons m l ih => simp [ih, State.supplyMoment_pending]

theorem State.endReset_pending (s : State) (a b c d e) : (State.endReset a b c d e s).pending = s.pending := by
  simp only [State.endReset]; cases d <;> cases h : b.below <;>
    simp [State.leaveStarting_pending, State.restore_pending, State.readStraps_pending,
      State.foldl_supplyMoment_pending, State.fallBelowWarning_pending]

theorem State.changeEvent_pending (s : State) (a b c) : (State.changeEvent a b c s).pending = s.pending := by
  simp only [State.changeEvent]; repeat' split
  all_goals simp

theorem State.countChatter_pending (s : State) (a b c d) : (State.countChatter a b c d s).pending = s.pending := by
  simp only [State.countChatter]; repeat' split
  all_goals simp

theorem State.qualifiedChange_pending (s : State) (a b c) : (State.qualifiedChange a b c s).pending = s.pending := by
  simp only [State.qualifiedChange]; repeat' split
  all_goals simp [State.changeEvent_pending, State.countChatter_pending]

theorem State.edge_pending (s : State) (a) : (State.edge a s).pending = s.pending := by
  simp only [State.edge]; repeat' split
  all_goals simp [State.qualifiedChange_pending]

theorem State.countScan_pending (s : State) : (State.countScan s).pending = s.pending := by
  simp only [State.countScan]; repeat' split
  all_goals simp

theorem State.startScan_pending (s : State) : (State.startScan s).pending = s.pending := by
  simp only [State.startScan]; repeat' split
  all_goals simp [State.countScan_pending]

theorem State.evaluateChannel_pending (s : State) (a b c) : (State.evaluateChannel a b c s).pending = s.pending := by
  simp only [State.evaluateChannel]; repeat' split
  all_goals simp

theorem State.snapshotChannel_pending (s : State) (a b c) : (State.snapshotChannel a b c s).pending = s.pending := by
  simp only [State.snapshotChannel]; repeat' split
  all_goals simp

theorem State.checkReference_pending (s : State) (a b) : (State.checkReference a b s).1.pending = s.pending := by
  simp only [State.checkReference]; repeat' split
  all_goals simp

theorem State.evaluateScan_pending (s : State) (a b) : (State.evaluateScan a b s).pending = s.pending := by
  simp only [State.evaluateScan]; repeat' split
  all_goals simp [State.evaluateChannels, State.snapshotChannels, State.evaluateChannel_pending,
    State.snapshotChannel_pending, State.checkReference_pending]

theorem State.stage_pending (s : State) (a) : (State.stage a s).pending = s.pending := by
  simp only [State.stage, State.formBatch]; repeat' split
  all_goals simp

theorem State.beginRetaining_pending (s : State) (a b) : (State.beginRetaining a b s).pending = s.pending := rfl

theorem State.becomeStuck_pending (s : State) : (State.becomeStuck s).pending = s.pending := by
  simp only [State.becomeStuck]; repeat' split
  all_goals simp [State.breakReception]

theorem State.peerHeard_pending (s : State) (a) : (State.peerHeard a s).pending = s.pending := by
  simp only [State.peerHeard]; repeat' split
  all_goals simp

theorem State.foldl_writeHeard_pending (l : List Draft) (s : State) :
    (l.foldl State.writeHeard s).pending = s.pending := by
  induction l generalizing s with
  | nil => rfl
  | cons d l ih => simp [ih]

theorem State.takeHeard_pending (s : State) (a b) : (State.takeHeard a b s).pending = s.pending := by
  simp only [State.takeHeard]; repeat' split
  all_goals simp [State.foldl_writeHeard_pending]

theorem State.takeEvent_pending (s : State) (a b) : (State.takeEvent a b s).pending = s.pending := by
  simp only [State.takeEvent]; repeat' split
  all_goals simp [State.takeHeard_pending]

theorem State.noteBeacon_pending (s : State) (a b) : (State.noteBeacon a b s).pending = s.pending := by
  simp only [State.noteBeacon]; repeat' split
  all_goals simp

theorem State.stepTime_pending (s : State) (a) : (State.stepTime a s).pending = s.pending := by
  simp only [State.stepTime]; repeat' split
  all_goals simp

theorem State.gainSync_pending (s : State) : (State.gainSync s).pending = s.pending := by
  simp only [State.gainSync]; repeat' split
  all_goals simp

theorem State.takeBeaconTime_pending (s : State) (a b) : (State.takeBeaconTime a b s).pending = s.pending := by
  simp only [State.takeBeaconTime]; repeat' split
  all_goals simp [State.stepTime_pending, State.gainSync_pending]

theorem State.takeBeacon_pending (s : State) (a b c) : (State.takeBeacon a b c s).pending = s.pending := by
  simp only [State.takeBeacon]; repeat' split
  all_goals simp [State.noteBeacon_pending, State.takeBeaconTime_pending]

theorem State.takeStationFrame_pending (s : State) (a b) : (State.takeStationFrame a b s).pending = s.pending := by
  simp only [State.takeStationFrame]; repeat' split
  all_goals simp [State.takeEvent_pending, State.takeBeacon_pending]

theorem State.clashFrame_pending (s : State) : (State.clashFrame s).pending = s.pending := by
  simp only [State.clashFrame]; repeat' split
  all_goals simp

theorem State.dispatch_pending (s : State) (a b) : (State.dispatch a b s).pending = s.pending := by
  simp only [State.dispatch]; repeat' split
  all_goals simp [State.takeStationFrame_pending, State.peerHeard_pending, State.clashFrame_pending]

theorem State.receive_pending (s : State) (a) (b : Nat → State → State) (h : ∀ n s, (b n s).pending = s.pending) :
    (State.receive a b s).pending = s.pending := by
  simp only [State.receive]; repeat' split
  all_goals simp [h, State.breakReception, State.acceptReception]

theorem State.takeAddressed_pending (s : State) (a) (b : State → State) (h : ∀ s, (b s).pending = s.pending) :
    (State.takeAddressed a b s).pending = s.pending := by
  simp only [State.takeAddressed]; repeat' split
  all_goals simp [h]

theorem State.takeEither_pending (s : State) (a) (b : Bool → State → State) (h : ∀ x s, (b x s).pending = s.pending) :
    (State.takeEither a b s).pending = s.pending := by
  simp only [State.takeEither]; repeat' split
  all_goals simp [h]

theorem State.takeQuery_pending (s : State) (a) : (State.takeQuery a s).pending = s.pending := by
  simp only [State.takeQuery]; repeat' split
  all_goals simp

theorem State.takeForce_pending (s : State) : (State.takeForce s).pending = s.pending := by
  simp only [State.takeForce]; repeat' split
  all_goals simp

theorem State.takeConfig_pending (s : State) (a b) : (State.takeConfig a b s).pending = s.pending := by
  simp only [State.takeConfig]; repeat' split
  all_goals simp

theorem State.takeSetupEnd_pending (s : State) (a b) : (State.takeSetupEnd a b s).pending = s.pending := by
  simp only [State.takeSetupEnd]; repeat' split
  all_goals simp [State.enterRunning_pending]

theorem State.takeRelease_pending (s : State) (a b c) : (State.takeRelease a b c s).pending = s.pending := by
  simp only [State.takeRelease]; split <;> simp

/-- The steps a reset can strike in leave the queue. -/
theorem State.runStep_pending (s : State) (e) : (State.runStep s e).pending = s.pending := by
  cases e <;> simp only [State.runStep]
  case resetEnd => simp only [execResetEnd, Result.stateOr]; split <;> simp [State.endReset_pending]
  case setupWindowExpiry =>
    simp only [execSetupWindowExpiry]; split <;> simp [Result.stateOr, State.enterRunning_pending]
  case setupEnd =>
    simp only [execSetupEnd, Result.stateOr]; rw [State.receive_pending]
    · simp
    · exact fun _ t => State.takeEither_pending t _ _ fun _ u => State.takeSetupEnd_pending u _ _
  case inputEdge =>
    simp only [execInputEdge, Result.stateOr]; split <;> simp [State.edge_pending]
  case qualifyTimeExpiry =>
    simp only [execQualifyTimeExpiry]; split <;> simp [Result.stateOr, State.qualifiedChange_pending]
  case scanEvaluation =>
    simp only [execScanEvaluation]; split <;> simp [Result.stateOr, State.evaluateScan_pending]
  case supplyFallBelowWarning =>
    simp only [execSupplyFallBelowWarning, Result.stateOr]; split <;> simp [State.fallBelowWarning_pending]
  all_goals
    simp only [execBeaconReceived, execTriggerReceived, execEventReceived, execOtherFrameReceived, Result.stateOr]
    rw [State.receive_pending]
    · simp
    · exact fun _ t => State.dispatch_pending t _ _

theorem State.struckBy_pending (s : State) (x) : (State.struckBy x s).pending = s.pending := by
  cases x <;> simp only [State.struckBy]
  split
  · rfl
  · exact State.runStep_pending _ _

/-- A retaining reset leaves the queue, wherever it strikes. -/
theorem State.beginReset_pending (s : State) (a b) : (State.beginReset a b s).pending = s.pending := by
  simp only [State.beginReset, State.beginRetaining_pending, State.struckBy_pending]

theorem State.replyEnded_pending (s : State) (x) : (State.replyEnded x s).pending = s.pending := by
  simp only [State.replyEnded]; split <;> simp [State.beginReset_pending]

theorem State.endBatch_pending (s : State) (a) : (State.endBatch a s).pending = s.pending := by
  simp only [State.endBatch]; split <;> simp

theorem State.sourceAbandoned_pending (s : State) (x a) : (State.sourceAbandoned x a s).pending = s.pending := by
  simp only [State.sourceAbandoned]; repeat' split
  all_goals simp [State.replyEnded_pending, State.endBatch_pending]

theorem State.sourceCompleted_pending (s : State) (x a) : (State.sourceCompleted x a s).pending = s.pending := by
  simp only [State.sourceCompleted]; repeat' split
  all_goals simp [State.replyEnded_pending, State.endBatch_pending]

theorem State.countAttempt_pending (s : State) (x a b) : (State.countAttempt x a b s).pending = s.pending := by
  simp only [State.countAttempt]; repeat' split
  all_goals simp [State.sourceAbandoned_pending]

end Sys2Proof.Machine
end

