-- ==== Sys2Proof/Laws/Write.lean ====
section
/-!
SUPPORT. What a write to the ring can do, case by case (R4, R5, R8, R37, R39, R44), and the handling of an event.
-/

namespace Sys2Proof.Machine

/-! ## The capture states -/

@[simp] theorem CaptureState.isFrozen_off : CaptureState.off.isFrozen = false := rfl
@[simp] theorem CaptureState.isFrozen_armed : CaptureState.armed.isFrozen = false := rfl
@[simp] theorem CaptureState.isFrozen_post (c : Current) : (CaptureState.post c).isFrozen = false := rfl
@[simp] theorem CaptureState.isFrozen_frozen (c : Current) (r : FreezeReason) :
    (CaptureState.frozen c r).isFrozen = true := rfl
@[simp] theorem CaptureState.isPost_off : CaptureState.off.isPost = false := rfl
@[simp] theorem CaptureState.isPost_armed : CaptureState.armed.isPost = false := rfl
@[simp] theorem CaptureState.isPost_post (c : Current) : (CaptureState.post c).isPost = true := rfl
@[simp] theorem CaptureState.isPost_frozen (c : Current) (r : FreezeReason) :
    (CaptureState.frozen c r).isPost = false := rfl
@[simp] theorem CaptureState.held_off : CaptureState.off.held = false := rfl
@[simp] theorem CaptureState.held_armed : CaptureState.armed.held = false := rfl
@[simp] theorem CaptureState.held_post (c : Current) : (CaptureState.post c).held = true := rfl
@[simp] theorem CaptureState.held_frozen (c : Current) (r : FreezeReason) :
    (CaptureState.frozen c r).held = true := rfl
@[simp] theorem CaptureState.current_off : CaptureState.off.current = none := rfl
@[simp] theorem CaptureState.current_armed : CaptureState.armed.current = none := rfl
@[simp] theorem CaptureState.current_post (c : Current) : (CaptureState.post c).current = some c := rfl
@[simp] theorem CaptureState.current_frozen (c : Current) (r : FreezeReason) :
    (CaptureState.frozen c r).current = some c := rfl

/-- A state in POST is not frozen. -/
theorem CaptureState.not_frozen_of_post {st : CaptureState} (h : st.isPost = true) : st.isFrozen = false := by
  cases st <;> simp_all

/-- Held is POST or FROZEN. -/
theorem CaptureState.held_iff (st : CaptureState) : st.held = true ↔ st.isPost = true ∨ st.isFrozen = true := by
  cases st <;> simp

/-! ## A write -/

/-- Outside RUNNING a write changes nothing (R4). -/
theorem State.write_notRunning (d : Draft) {s : State} (h : s.sc.op ≠ .running) : s.write d = (s, .notRunning) := by
  simp [State.write, h]

/-- In FROZEN a write is refused and counted (R4, R39). -/
theorem State.write_frozen (d : Draft) {s : State} (h : s.sc.op = .running)
    (hf : s.cc.record.st.isFrozen = true) : s.write d = (s.countUnrecorded, .frozen) := by
  simp [State.write, h, hf]

/-- With the sequence numbers used up a write is a sequence restart (R8). -/
theorem State.write_restart (d : Draft) {s : State} (h : s.sc.op = .running)
    (hf : s.cc.record.st.isFrozen = false) (hn : s.hr.nextSeq = seqLimit) :
    s.write d = (s.sequenceRestart d, .taken 2) := by
  simp [State.write, h, hf, hn]

/-- A plain write in RUNNING (R5, R37). -/
theorem State.write_taken (d : Draft) {s : State} (h : s.sc.op = .running)
    (hf : s.cc.record.st.isFrozen = false) (hn : s.hr.nextSeq ≠ seqLimit) :
    s.write d = (State.countPost { s with hr := s.hr.store d }, .taken s.hr.nextSeq) := by
  simp [State.write, h, hf, hn]

/-- Outside POST a plain write changes the ring alone (R5). -/
theorem State.write_plain (d : Draft) {s : State} (h : s.sc.op = .running)
    (hf : s.cc.record.st.isFrozen = false) (hp : s.cc.record.st.isPost = false) (hn : s.hr.nextSeq ≠ seqLimit) :
    s.write d = ({ s with hr := s.hr.store d }, .taken s.hr.nextSeq) := by
  rw [State.write_taken d h hf hn]; simp [State.countPost, hp]

/-- In POST a plain write counts (R37). -/
theorem State.write_post (d : Draft) {s : State} {cur : Current} (h : s.sc.op = .running)
    (hp : s.cc.record.st = .post cur) (hn : s.hr.nextSeq ≠ seqLimit)
    (hc : s.cc.record.postWritten + 1 ≠ s.station.postCount) :
    s.write d =
      ({ s with
          hr := s.hr.store d
          cc := { s.cc with record := { s.cc.record with postWritten := s.cc.record.postWritten + 1 } } },
        .taken s.hr.nextSeq) := by
  have hc' : ¬(s.cc.record.postWritten + 1 = s.sc.config.station.postCount) := hc
  rw [State.write_taken d h (by rw [hp]; rfl) hn]
  simp [State.countPost, hp, State.setRecord, State.station, hc', Ring.store]

/-- In POST the plain write that reaches the post count freezes the capture (R37). -/
theorem State.write_post_last (d : Draft) {s : State} {cur : Current} (h : s.sc.op = .running)
    (hp : s.cc.record.st = .post cur) (hn : s.hr.nextSeq ≠ seqLimit)
    (hc : s.cc.record.postWritten + 1 = s.station.postCount) :
    s.write d =
      ({ s with
          hr := s.hr.store d
          cc := { s.cc with
            record := { s.cc.record with
              st := .frozen cur .countReached, postWritten := s.cc.record.postWritten + 1 }
            postClock := s.stopClock s.cc.postClock
            frozenClock := some (.running s.tu.elapsed) } },
        .taken s.hr.nextSeq) := by
  have hc' : s.cc.record.postWritten + 1 = s.sc.config.station.postCount := hc
  have hclk : ∀ o, State.stopClock { s with hr := s.hr.store d } o = s.stopClock o := by
    intro o; cases o with
    | none => rfl
    | some w => cases w <;> rfl
  have hset : ∀ r o, State.stopClock (State.setRecord r { s with hr := s.hr.store d }) o = s.stopClock o := by
    intro r o; cases o with
    | none => rfl
    | some w => cases w <;> rfl
  rw [State.write_taken d h (by rw [hp]; rfl) hn]
  simp only [State.countPost, hp, CaptureState.isPost_post, if_true]
  simp [State.setRecord, State.station, hc', State.freeze, Ring.store]
  first | done | (cases s.cc.postClock with
    | none => rfl
    | some w => cases w <;> rfl)

/-- The line controller is untouched by a write but where a capture is lost. -/
theorem State.write_lc (d : Draft) {s : State} (hn : s.hr.nextSeq ≠ seqLimit) : (s.write d).1.lc = s.lc := by
  simp only [State.write, hn, if_false]
  repeat' split
  all_goals simp

/-- Counting a write in POST touches the check and the capture record alone. -/
theorem State.countPost_frame (s : State) : s.countPost = { s with hr := s.countPost.hr, cc := s.countPost.cc } := by
  simp only [State.countPost]
  cases h : s.cc.record.st <;> by_cases hc : s.cc.record.postWritten + 1 = s.sc.config.station.postCount <;>
    simp [State.setRecord, State.freeze, State.station, hc]

/-- The ring after a plain write is the ring with the draft stored, counted in POST or not. -/
theorem State.countPost_store (s : State) (d : Draft) :
    (State.countPost { s with hr := s.hr.store d }).hr = s.hr.store d := by
  simp only [State.countPost]
  cases h : s.cc.record.st <;> by_cases hc : s.cc.record.postWritten + 1 = s.sc.config.station.postCount <;>
    simp [State.setRecord, State.freeze, Ring.store, State.station, hc]

/-- Entry to POST from ARMED with sequence numbers left (R26 steps 3 and 4, R31). -/
theorem State.enterPost_armed (z : TimedTag) (c : Cause) {s : State} (h : s.sc.op = .running)
    (ha : s.cc.record.st = .armed) (hn : s.hr.nextSeq ≠ seqLimit) :
    s.enterPost z c = { s with
      hr := s.hr.store (s.captureDraft .triggerMark z (.marked c))
      cc := { s.cc with
        record :=
          { st := .post { tag := z.tag, triggerTime := z.time, cause := c, markSeq := s.hr.nextSeq }
            postWritten := 0, retag := 0, seen := [], overflow := false, unrecorded := 0 }
        postClock := some (.running s.tu.elapsed)
        frozenClock := none } } := by
  simp only [State.enterPost]
  rw [State.write_plain _ h (by simp [ha]) (by simp [ha]) hn]
  simp [State.setRecord, Ring.store]

/-- With no capture held a sequence restart changes the ring alone (R8, R44). -/
theorem State.sequenceRestart_unheld (d : Draft) {s : State} (h : s.cc.record.st.held = false) :
    s.sequenceRestart d = { s with
      hr := (s.hr.emptied.store (s.ownDraft s.tu.timeCount .sequenceRestart none none none)).store d } := by
  simp [State.sequenceRestart, State.loseCapture, h, State.ownDraft, State.address]

/-- Entry to POST from ARMED whose mark is written as a sequence restart (R8, R26 steps 3 and 4, R31). -/
theorem State.enterPost_restart (z : TimedTag) (c : Cause) {s : State} (h : s.sc.op = .running)
    (ha : s.cc.record.st = .armed) (hn : s.hr.nextSeq = seqLimit) :
    s.enterPost z c = { s with
      hr := (s.hr.emptied.store (s.ownDraft s.tu.timeCount .sequenceRestart none none none)).store
        (s.captureDraft .triggerMark z (.marked c))
      cc := { s.cc with
        record :=
          { st := .post { tag := z.tag, triggerTime := z.time, cause := c, markSeq := 2 }
            postWritten := 0, retag := 0, seen := [], overflow := false, unrecorded := 0 }
        postClock := some (.running s.tu.elapsed)
        frozenClock := none } } := by
  simp only [State.enterPost]
  rw [State.write_restart _ h (by simp [ha]) hn, State.sequenceRestart_unheld _ (by simp [ha])]
  simp [State.setRecord, Ring.store]

/-! ## An event -/

/-- Outside RUNNING no event is taken (R85). -/
theorem State.emit_notRunning (e : LocalEvent) {s : State} (h : s.sc.op ≠ .running) : s.emit e = s := by
  simp [State.emit, h]

/-- In RUNNING an event is handled in three steps (R85). -/
theorem State.emit_running (e : LocalEvent) {s : State} (h : s.sc.op = .running) (hc : s.cut = none) :
    s.emit e = State.triggerStep e (State.announceStep e (s.writeStep e).2 (s.writeStep e).1) := by
  simp [State.emit, State.handleEvent, h, hc]

/-- Where a reset strikes in its handling, an event's write is made and nothing else (R101). -/
theorem State.emit_struck (e : LocalEvent) {s : State} (h : s.sc.op = .running) (hc : s.cut = some 0) :
    s.emit e = (s.writeStep e).1.strike := by
  simp [State.emit, h, hc]

/-- Where a reset strikes at the end of its handling, an event is handled whole and nothing else (R82). -/
theorem State.emit_struckAtEnd (e : LocalEvent) {s : State} (h : s.sc.op = .running) (hc : s.cut = some 1) :
    s.emit e = (State.handleEvent e { s with cut := none }).strike := by
  simp [State.emit, h, hc]

/-! ## The operations of the ring and the record take no notice of where a reset strikes -/

theorem State.freeze_withCut (r : FreezeReason) (s : State) (c : Option Nat) :
    State.freeze r { s with cut := c } = { s.freeze r with cut := c } := by
  unfold State.freeze; dsimp only; split <;> rfl

theorem State.countPost_withCut (s : State) (c : Option Nat) :
    State.countPost { s with cut := c } = { s.countPost with cut := c } := by
  simp only [State.countPost, State.setRecord, State.station]
  by_cases h : s.cc.record.st.isPost = true
  · by_cases hp : s.cc.record.postWritten + 1 = s.sc.config.station.postCount
    · simp only [h, hp, if_true]; exact State.freeze_withCut _ { s with hr := _, cc := _ } c
    · simp only [h, hp, if_true, if_false]
  · simp only [h]; rfl

theorem State.withdrawTrigger_withCut (s : State) (c : Option Nat) :
    State.withdrawTrigger { s with cut := c } = { s.withdrawTrigger with cut := c } := by
  unfold State.withdrawTrigger; dsimp only; split <;> rfl

theorem State.loseCapture_withCut (s : State) (c : Option Nat) :
    State.loseCapture { s with cut := c } = { s.loseCapture with cut := c } := by
  unfold State.loseCapture; dsimp only; split
  · exact State.withdrawTrigger_withCut s.clearRecord c
  · rfl

theorem State.write_withCut (d : Draft) (s : State) (c : Option Nat) :
    State.write d { s with cut := c } = ({ (s.write d).1 with cut := c }, (s.write d).2) := by
  unfold State.write; dsimp only; split
  · rfl
  split
  · rfl
  split
  · simp only [State.sequenceRestart]; rw [State.loseCapture_withCut { s with hr := s.hr.emptied } c]; rfl
  · rw [State.countPost_withCut { s with hr := s.hr.store d } c]

end Sys2Proof.Machine
end

