-- ==== Sys2Proof/Laws/Ring.lean ====
section
/-!
SUPPORT. The ring's own operations keep it sound, and a write does.
-/

namespace Sys2Proof.Machine

/-- Marking the check leaves the ring sound. -/
theorem Ring.Sound.withCheck {r : Ring} (h : r.Sound) (c : RetentionCheck) : ({ r with check := c } : Ring).Sound :=
  ⟨h.size, h.heldMax, h.heldBelow, h.seqMax, h.newestAt, h.entries⟩

/-- The empty ring is sound. -/
theorem Ring.Sound.emptied {r : Ring} (h : r.positions.length = ringSize) : r.emptied.Sound where
  size := h
  heldMax := by simp [Ring.emptied]
  heldBelow := by simp [Ring.emptied]
  seqMax := by simp [Ring.emptied, seqLimit]
  newestAt := by simp [Ring.emptied, ringSize]
  entries := by intro q h1 h2; simp [Ring.emptied] at h1 h2; omega

/-- A plain write keeps the ring sound while sequence numbers are left (R5). -/
theorem Ring.Sound.store {r : Ring} (h : r.Sound) (hn : r.nextSeq ≠ seqLimit) (d : Draft) : (r.store d).Sound where
  size := by simp [Ring.store, h.size]
  heldMax := by simp [Ring.store]
  heldBelow := by have := h.heldBelow; simp only [Ring.store]; omega
  seqMax := by have := h.seqMax; simp only [Ring.store]; omega
  newestAt := by
    have := h.newestAt; have := h.heldBelow
    simp only [Ring.store, ringSize] at *; omega
  entries := by
    intro q h1 h2
    have hs := h.size; have hp := h.newestAt; have hb := h.heldBelow; have hm := h.heldMax
    simp only [Ring.store, ringSize] at *
    by_cases hq : q = r.nextSeq
    · subst hq
      refine ⟨d, ?_⟩
      have : (r.newest + 1) % 512 = (r.nextSeq - 1) % 512 := by omega
      rw [this, List.getElem?_set_self (by omega)]
    · obtain ⟨d', hd'⟩ := h.entries q (by omega) (by omega)
      refine ⟨d', ?_⟩
      rw [List.getElem?_set_ne (by simp only [ringSize] at *; omega)]
      exact hd'

/-- A stored entry stands at the position of its seq. -/
theorem Ring.store_entry {r : Ring} (h : r.Sound) (d : Draft) :
    (r.store d).positions[(r.nextSeq - 1) % 512]? = some (some { seq := r.nextSeq, body := d }) := by
  have hs := h.size; have hp := h.newestAt; have hb := h.heldBelow
  simp only [Ring.store, ringSize] at *
  have : (r.newest + 1) % 512 = (r.nextSeq - 1) % 512 := by omega
  rw [this, List.getElem?_set_self (by omega)]

/-- Where a held seq stands (R3). -/
theorem Ring.Sound.positionOf {r : Ring} (h : r.Sound) {q : Nat} (h1 : r.nextSeq ≤ q + r.held) (h2 : q < r.nextSeq) :
    r.positionOf q = (q - 1) % ringSize := by
  have hp := h.newestAt; have hb := h.heldBelow; have hm := h.heldMax
  simp only [Ring.positionOf, ringSize] at *; omega

/-- A held seq has its entry (R3, R5). -/
theorem Ring.Sound.entry {r : Ring} (h : r.Sound) {q : Nat} (h1 : r.nextSeq ≤ q + r.held) (h2 : q < r.nextSeq) :
    ∃ d, r.entry q = some { seq := q, body := d } := by
  obtain ⟨d, hd⟩ := h.entries q h1 h2
  refine ⟨d, ?_⟩
  rw [Ring.entry, h.positionOf h1 h2, List.getD_eq_getElem?_getD, hd]; rfl

/-! ## The ring in the operations on the state -/

@[simp] theorem State.setRecord_hr (r : CaptureRecord) (s : State) :
    (s.setRecord r).hr = { s.hr with check := .matching } := rfl

/-- Freezing touches the check alone. -/
theorem State.freeze_hr (reason : FreezeReason) (s : State) :
    (s.freeze reason).hr = s.hr ∨ (s.freeze reason).hr = { s.hr with check := .matching } := by
  unfold State.freeze; split
  · exact .inl rfl
  · exact .inl rfl
  · exact .inr rfl
  · exact .inl rfl

/-- Counting a write in POST touches the check alone. -/
theorem State.Sound.countPost {s : State} (h : s.hr.Sound) : s.countPost.hr.Sound := by
  unfold State.countPost; dsimp only; split
  · split
    · rcases State.freeze_hr .countReached (s.setRecord _) with e | e <;> rw [e]
      · exact h.withCheck _
      · exact (h.withCheck _).withCheck _
    · exact h.withCheck _
  · exact h

/-- A withdrawal leaves the ring. -/
theorem State.Sound.loseCapture {s : State} (h : s.hr.Sound) : s.loseCapture.hr.Sound := by
  unfold State.loseCapture; split
  · simp only [State.withdrawTrigger_hr]; exact h.withCheck _
  · exact h

/-- The loss of a capture leaves the counters of the ring. -/
theorem State.loseCapture_hr (s : State) :
    s.loseCapture.hr = s.hr ∨ s.loseCapture.hr = { s.hr with check := .matching } := by
  unfold State.loseCapture; split
  · right; simp [State.clearRecord]
  · exact .inl rfl

/-- A sequence restart leaves a sound ring (R8). -/
theorem State.Sound.sequenceRestart {s : State} (h : s.hr.Sound) (d : Draft) : (s.sequenceRestart d).hr.Sound := by
  have h0 : ({ s with hr := s.hr.emptied } : State).hr.Sound := Ring.Sound.emptied h.size
  have h1 := State.Sound.loseCapture h0
  have hn : ({ s with hr := s.hr.emptied } : State).loseCapture.hr.nextSeq = 1 := by
    rcases State.loseCapture_hr { s with hr := s.hr.emptied } with e | e <;> rw [e] <;> rfl
  unfold State.sequenceRestart
  refine Ring.Sound.store (Ring.Sound.store h1 ?_ _) ?_ _
  · rw [hn]; decide
  · simp [Ring.store, hn, seqLimit]

/-- A write keeps the ring sound (R4, R5, R8). -/
theorem State.Sound.write {s : State} (h : s.hr.Sound) (d : Draft) : (s.write d).1.hr.Sound := by
  unfold State.write; split
  · exact h
  · split
    · exact h.withCheck _
    · split
      · exact State.Sound.sequenceRestart h d
      · exact State.Sound.countPost (s := { s with hr := s.hr.store d }) (h.store ‹_› d)

/-- A release that withdraws and clears keeps the ring but for the check. -/
theorem State.Sound.clearRecord {s : State} (h : s.hr.Sound) : s.clearRecord.hr.Sound := h.withCheck _

theorem State.Sound.enterPost {s : State} (h : s.hr.Sound) (t : TimedTag) (cause : Cause) :
    (s.enterPost t cause).hr.Sound := by
  have hw := State.Sound.write h (s.captureDraft .triggerMark t (.marked cause))
  unfold State.enterPost; split <;> simp_all [Ring.Sound.withCheck]

theorem State.Sound.originate {s : State} (h : s.hr.Sound) (cause : Cause) (time : Nat) :
    (s.originate cause time).hr.Sound := by
  simp only [State.originate]; apply State.Sound.enterPost; exact h

theorem State.Sound.requestTrigger {s : State} (h : s.hr.Sound) (cause : Cause) (time : Option Nat) :
    (s.requestTrigger cause time).hr.Sound := by
  unfold State.requestTrigger; split
  all_goals first | exact h | exact State.Sound.originate h _ _

theorem State.Sound.writeSeen {s : State} (h : s.hr.Sound) (a b : Bool) (z : TimedTag) (c : Bool) :
    (s.writeSeen a b z c).hr.Sound := by
  unfold State.writeSeen; split
  · exact State.Sound.write h _
  · exact h

theorem State.Sound.compare {s : State} (h : s.hr.Sound) (z : TimedTag) : (s.compare z).hr.Sound := by
  unfold State.compare; dsimp only; split
  · exact h
  · split
    · exact h
    · split
      · apply State.Sound.writeSeen; simp only [State.withdrawTrigger_hr]; exact h.withCheck _
      · apply State.Sound.writeSeen; exact h.withCheck _

theorem State.Sound.takeTrigger {s : State} (h : s.hr.Sound) (z : TimedTag) : (s.takeTrigger z).hr.Sound := by
  unfold State.takeTrigger; repeat' split
  all_goals first | exact h | exact State.Sound.enterPost h _ _ | exact State.Sound.compare h _

theorem State.Sound.takeGossip {s : State} (h : s.hr.Sound) (code : CaptureCode) (tag : Option TimedTag) :
    (s.takeGossip code tag).hr.Sound := by
  unfold State.takeGossip; repeat' split
  all_goals first | exact h | exact State.Sound.enterPost h _ _ | exact State.Sound.compare h _

theorem State.Sound.release {s : State} (h : s.hr.Sound) (reason : ReleaseReason) : (s.release reason).hr.Sound := by
  unfold State.release; split
  · exact h
  · exact h
  · exact h
  · apply State.Sound.write; apply State.Sound.clearRecord; simpa using h

theorem State.Sound.writeStep {s : State} (h : s.hr.Sound) (e : LocalEvent) : (s.writeStep e).1.hr.Sound := by
  have hw := State.Sound.write h (s.ownDraft e.time e.kind e.subject e.value none)
  unfold State.writeStep; repeat' split
  all_goals simp_all

/-- The handling of a local event keeps the ring sound, whole or cut short. -/
theorem State.Sound.handleEvent {s : State} (h : s.hr.Sound) (e : LocalEvent) : (s.handleEvent e).hr.Sound := by
  unfold State.handleEvent State.triggerStep; dsimp only; split
  · rw [State.announceStep_hr]; exact State.Sound.writeStep h e
  · apply State.Sound.requestTrigger; rw [State.announceStep_hr]; exact State.Sound.writeStep h e

theorem State.Sound.emit {s : State} (h : s.hr.Sound) (e : LocalEvent) : (s.emit e).hr.Sound := by
  unfold State.emit; repeat' split
  · exact State.Sound.handleEvent h e
  · exact State.Sound.writeStep h e
  · exact State.Sound.handleEvent (s := { s with cut := none }) h e
  · exact State.Sound.handleEvent (s := { s with cut := some _ }) h e
  · exact h

theorem State.Sound.writeHeard {s : State} (h : s.hr.Sound) (d : Draft) : (s.writeHeard d).hr.Sound := by
  unfold State.writeHeard; split
  · rw [State.passPoint_hr]; exact State.Sound.write h d
  · exact h

/-- The handling of a heard frame keeps the ring sound. -/
theorem State.Sound.takeHeard {s : State} (h : s.hr.Sound) (src : Nat) (e : EventFields) :
    (s.takeHeard src e).hr.Sound := by
  have hl : ∀ (ds : List Draft) (v : State), v.hr.Sound → (ds.foldl State.writeHeard v).hr.Sound := by
    intro ds; induction ds with
    | nil => intro v hv; exact hv
    | cons d ds ih => intro v hv; exact ih _ (State.Sound.writeHeard hv d)
  unfold State.takeHeard; split
  · apply hl; split
    · exact State.Sound.writeHeard h _
    · exact h
  · exact h

end Sys2Proof.Machine
end

