-- ==== Sys2Proof/Tests/Slice0.lean ====
section
/-!
SUPPORT. The author's own tests: an ill-formed command for each well-formedness check, the spec's worked figures, and,
for each statement with hypotheses, concrete states and operands that meet them (`test_meets_<statement>`).
-/

namespace Sys2Proof.Tests

open Sys2Proof Sys2Proof.Machine

/-! ## States to test on -/

/-- Address 7, RUNNING for 1 ms, ARMED, nothing written. -/
def up : State :=
  { State.reset with
    sc := { State.reset.sc with
      op := .running, resetHeld := false, belowPowerOn := false, captHeld := false, straps := ⟨7#5, false, false⟩ }
    tu := { TimeUnit.initial with timeCount := 1000, elapsed := 1000, schedule := some ⟨0, 0⟩ }
    an := { Scanner.initial 2007 with nextScan := some 1000 }
    lc := { LineController.initial 1007 with quietSince := some 984 } }

/-- The same station in SETUP. -/
def settingUp : State :=
  { up with
    sc := { up.sc with op := .setup, setupSince := some 0 }, tu := { up.tu with schedule := none }
    an := { up.an with nextScan := none } }

/-- A tag of origin 3, and one of origin 9 with the same time. -/
def tag3 : TimedTag := { tag := { origin := 3, serial := 1 }, time := 500 }
def tag9 : TimedTag := { tag := { origin := 9, serial := 1 }, time := 500 }

/-- A capture current under a tag. -/
def current (t : TimedTag) : Current := { tag := t.tag, triggerTime := t.time, cause := .peerTrigger, markSeq := 1 }

/-- `up` with a capture state. -/
def holding (st : CaptureState) (s : State) : State := { s with cc := { s.cc with record := { s.cc.record with st } } }

/-- `up` in POST since moment 400, with a count of writes and a seen list. -/
def inPost (written : Nat) (seen : List TimedTag) : State :=
  let s := holding (.post (current tag9)) up
  { s with cc := { s.cc with
      record := { s.cc.record with postWritten := written, seen }, postClock := some (.running 400) } }

/-- `up` in FROZEN since moment 600. -/
def inFrozen : State :=
  let s := holding (.frozen (current tag9) .timeElapsed) up
  { s with cc := { s.cc with frozenClock := some (.running 600) } }

/-- `up` with a line state; the line is active in a reception and in a transmission. -/
def onLine (line : LineState) (s : State) : State :=
  { s with lc := { s.lc with
      line
      quietSince := match line with
        | .receiving _ => none
        | .transmitting _ _ _ => none
        | .quiet => some 984
        | .staged _ _ => some 984
        | .backoff => some 984
        | .stuck => some 984 } }

/-- A frame of this station, for a source. -/
def outgoing (source : Source) : Outgoing := { source, frame := { kind := kindBeacon, src := 7#8, dst := 31#8, payload := [] } }

/-- A ring of the entries 1 to `n`, stored one by one. -/
def draft : Draft :=
  { time := 5, origin := 7, originSeq := none, kind := .inputRise, subject := some 11, value := none, capture := none,
    sync := .free }

/-- `up` with the next seq set, nothing held. -/
def atSeq (n : Nat) (s : State) : State := { s with hr := { s.hr with nextSeq := n, newest := (n + 510) % 512 } }

/-- An input setting. -/
def setting (sensitivity : Sensitivity) (qualify repeatEvery chatterLimit : Nat) : InputSetting :=
  { sensitivity, qualify, repeatEvery, chatterLimit, chatterRest := 1, trigger := true }

/-- `up` with input 11 set and recorded so. -/
def withInput (x : InputSetting) (r : InputRecord) (s : State) : State :=
  { s with
    sc := { s.sc with config := { s.sc.config with inputsHigh := List.replicate 6 x } }
    iq := s.iq.set 11 r }

/-! ## Well-formedness: an ill-formed command for each check -/

theorem test_wf_peer_zero : (Instr.peerPresenceExpiry 0#5).wf = false := by decide
theorem test_wf_peer_31 : (Instr.peerPresenceExpiry 31#5).wf = false := by decide
theorem test_wf_peer_ok : (Instr.peerPresenceExpiry 30#5).wf = true := by decide
theorem test_wf_beacon_from_service_node : (Instr.beaconReceived 0 0#8 31#8 (List.replicate 8 0#8)).wf = false := by decide
theorem test_wf_beacon_length : (Instr.beaconReceived 0 3#8 31#8 (List.replicate 9 0#8)).wf = false := by decide
theorem test_wf_beacon_ok : (Instr.beaconReceived 0 3#8 31#8 (List.replicate 16 0#8)).wf = true := by decide
theorem test_wf_trigger_source : (Instr.triggerReceived 0 31#8 31#8 (List.replicate 8 0#8)).wf = false := by decide
theorem test_wf_event_destination : (Instr.eventReceived 0 3#8 0#8 [1#8, 0#8, 0#8]).wf = false := by decide
theorem test_wf_clash_length : (Instr.clashFrameReceived 0 0x13#8 31#8 [1#8]).wf = false := by decide
theorem test_wf_other_has_own_row :
    (Instr.otherFrameReceived 0 { kind := kindBeacon, src := 3#8, dst := 31#8, payload := List.replicate 8 0#8 }).wf =
      false := by decide
theorem test_wf_other_broken :
    (Instr.otherFrameReceived 0 { kind := 0x77#8, src := 3#8, dst := 31#8, payload := List.replicate 65 0#8 }).wf =
      false := by decide
theorem test_wf_requests_to_zero :
    (Instr.query 0 0#8 0#8).wf = false ∧ (Instr.fetch 0 0#8 0#32).wf = false ∧ (Instr.peers 0 0#8).wf = false ∧
      (Instr.release 0 0#8 0#8 0#8).wf = false ∧ (Instr.force 0 0#8).wf = false ∧
      (Instr.setupEnd 0 0#8 0#12).wf = false ∧ (Instr.restart 0 0#8).wf = false ∧
      (Instr.config 0 0#8 [1#8]).wf = false := by decide
theorem test_wf_config_length : (Instr.config 0 7#8 (List.replicate 65 1#8)).wf = false ∧
    (Instr.config 0 7#8 []).wf = false ∧ (Instr.config 0 7#8 (List.replicate 64 1#8)).wf = true := by decide

/-! ## The spec's figures -/

/-- Section 10.1: the check of the bytes 0x31 to 0x39. -/
theorem test_check_of_nine_bytes :
    crc [0x31#8, 0x32#8, 0x33#8, 0x34#8, 0x35#8, 0x36#8, 0x37#8, 0x38#8, 0x39#8] = 0x29B1#16 := by decide +kernel

/-- Section 4.9: the draws of the station at address 7. -/
theorem test_dither_draws :
    ditherStep 2007 = 4014 ∧ ditherStep 4014 = 8028 ∧ ditherStep 8028 = 16056 ∧ ditherStep 16056 = 32113 ∧
      ditherStep 32113 = 31458 := by decide

/-- Section 7.9: the first two draws of the stations at addresses 3 and 7. -/
theorem test_backoff_draws :
    backoffStep 1003 = 501 ∧ backoffSlots 501 1 = 1 ∧ backoffStep 501 = 16634 ∧ backoffSlots 16634 2 = 2 ∧
      backoffSlots (backoffStep 1007) 1 = 1 ∧ backoffSlots (backoffStep (backoffStep 1007)) 2 = 3 := by decide

/-- Section 1.6: a full ring with next seq 1513. -/
theorem test_full_ring_figures :
    let r : Ring := { Ring.initial with held := 512, nextSeq := 1513, newest := 487 }
    r.oldestSeq = 1001 ∧ r.newestSeq = 1512 ∧ r.positionOf 1512 = 487 ∧ r.positionOf 1001 = 488 := by decide

/-- Section 6.9: the beacon offset of the station at address 10 with B = 100 ms is 31.25 ms. -/
theorem test_beacon_offset :
    ({ up with sc := { up.sc with straps := ⟨10#5, false, false⟩ } } : State).beaconOffset = 31250 := by decide

/-- R124: a frame of L payload bytes lasts 40 + 4 × L microseconds: two per symbol, half a microsecond each. -/
theorem test_frame_duration :
    let f : Frame := { kind := kindTrigger, src := 3#8, dst := 31#8, payload := List.replicate 8 0#8 }
    f.duration = 72 ∧ f.symbols.length = 144 := by decide +kernel

/-- Table 10-9: GAP is 0xC4. -/
theorem test_gap_code : Kind.gap.code = 0xC4 := by decide

/-- Table 10-7: a heard input event, with origin seq, without value. -/
theorem test_record_bytes :
    recordBytes { draft with originSeq := some 258 } =
      [0#8, 0#8, 0#8, 0#8, 0#8, 5#8, 0xA7#8, 0x00#8, 11#8, 0#8, 0#8, 0#8, 0#8, 0#8, 0#8, 0#8, 0#8, 0#8, 1#8, 2#8] := by
  decide

/-- Tables 10-7 and 10-12: a mark of the station at address 7, serial 2, cause FORCED. -/
theorem test_mark_bytes :
    recordBytes
        { time := 1000, origin := 7, originSeq := none, kind := .triggerMark, subject := some 7, value := some 999,
          capture := some { serial := 2, detail := .marked .forced }, sync := .synced } =
      [0#8, 0#8, 0#8, 0#8, 3#8, 0xE8#8, 0x67#8, 0xE0#8, 7#8, 1#8, 0#8, 0#8, 0#8, 0#8, 3#8, 0xE7#8, 2#8, 0x20#8, 0#8,
        0#8] := by decide

/-- Table 10-17: an input section of six settings, and the tests of R176. -/
theorem test_input_settings :
    parseInput [0x81#8, 20#8, 60#8, 4#8, 15#8] =
        some { sensitivity := .rise, qualify := 20, repeatEvery := 60, chatterLimit := 4, chatterRest := 15,
               trigger := true } ∧
      parseInput [0x83#8, 20#8, 60#8, 4#8, 15#8] = none ∧ parseInput [1#8, 0#8, 0#8, 3#8, 1#8] = none ∧
      parseInput [1#8, 0#8, 0#8, 61#8, 1#8] = none ∧ parseInput [1#8, 0#8, 0#8, 0#8, 16#8] = none ∧
      parseInput [4#8, 0#8, 0#8, 0#8, 1#8] = none := by decide

/-- Table 10-19: the STATION section of profile 1, and the tests of R178. -/
theorem test_station_section :
    parseStation [1#8, 0#8, 255#8, 0#8, 200#8, 0#8, 0x7F#8, 0x4D#8, 0x4D#8, 10#8, 10#8] = some (profileStation true) ∧
      parseStation [1#8, 0#8, 15#8, 0#8, 200#8, 0#8, 0x7F#8, 0x4D#8, 0x4D#8, 10#8, 10#8] = none ∧
      parseStation [1#8, 0#8, 255#8, 0#8, 200#8, 0#8, 0xFF#8, 0x4D#8, 0x4D#8, 10#8, 10#8] = none ∧
      parseStation [2#8, 0#8, 255#8, 0#8, 200#8, 0#8, 0x7F#8, 0x4D#8, 0x4D#8, 10#8, 10#8] = none := by decide

/-- Table 10-18: the ANALOG section of profile 1 with its interval, and one with N below 16 under dither (R177). -/
theorem test_analog_section :
    parseAnalog
        ((List.replicate 4 [0x09#8, 0x0D#8, 0xAC#8, 0x01#8, 0xF4#8, 100#8, 3#8]).flatten ++ [3#8, 0xE8#8, 1#8]) =
        some profile1.analog ∧
      parseAnalog
        ((List.replicate 4 [0x09#8, 0x0D#8, 0xAC#8, 0x01#8, 0xF4#8, 100#8, 3#8]).flatten ++ [0#8, 15#8, 1#8]) = none := by
  decide

/-- The state a command leads to. -/
def after (c : Instr) (s : State) : State :=
  match exec c s with
  | .next t => t
  | .fault _ => s
  | .refused _ => s

/-- A reset's end leads address 0 to START-FAULT (R167). -/
theorem test_reset_end_at_address_zero :
    let t := after (.resetEnd ⟨0#5, false, false⟩ ⟨false, []⟩ 50 .completes 0#12) State.reset
    t.sc.op = .startFault ∧ t.flt = true ∧ t.tu.timeCount = 50 := by decide +kernel

/-- Entry to RUNNING writes STATION_START and PEERS_PRESENT (R172), and announces both. -/
theorem test_entry_to_running :
    let t := after (.resetEnd ⟨7#5, false, true⟩ ⟨false, []⟩ 50 .completes 1#12) State.reset
    t.sc.op = .running ∧ t.hr.nextSeq = 3 ∧ t.er.queue.map (·.kind) = [.stationStart, .peersPresent] ∧
      (t.hr.entry 1).map (·.body.value) = some (some 0x000000_000001_010000) := by decide +kernel

/-- A supply below the warning threshold at the reset's end and restored for 10 ms within STARTING: the station enters
RUNNING in NORMAL (R183); one that is not restored by then enters it in WARNING, with FLT active. -/
theorem test_supply_restored_in_starting :
    let t := after (.resetEnd ⟨7#5, false, false⟩ ⟨true, [.rise 1000, .restored]⟩ 50 .completes 0#12) State.reset
    let u := after (.resetEnd ⟨7#5, false, false⟩ ⟨true, [.rise 1000]⟩ 9999 .completes 0#12) State.reset
    t.sc.op = .running ∧ t.sc.supply = .normal ∧ t.flt = false ∧ t.tu.timeCount = 11050 ∧
      u.sc.op = .running ∧ u.sc.supply = .warning (some 1000) ∧ u.flt = true ∧ u.hr.nextSeq = 3 := by decide +kernel

/-- A trigger-enabled input without qualify time, at its low level. -/
def readyInput : State := withInput (setting .both 0 0 0) { level := some false, qual := none, mode := .normal none none } up

/-- A reset within the handling of an input's change event: the entry is in the ring, and no capture was originated
(R101). A whole edge is followed by a capture. -/
theorem test_reset_within_an_event :
    let t := after (.resetPin (.inStep (.inputEdge 5 11) 0)) readyInput
    t.hr.nextSeq = 2 ∧ t.hr.check = .matching ∧ t.cc.record.st = .armed ∧ t.cc.serial = 0 ∧ t.sc.op = .starting ∧
      (after (.inputEdge 5 11) readyInput).hr.nextSeq = 3 ∧
      (after (.inputEdge 5 11) readyInput).cc.record.st.isPost = true ∧
      (after (.resetPin .between) readyInput).hr.nextSeq = 1 ∧
      (after (.resetPin .inFlight) readyInput).hr.check = .mismatched := by decide +kernel

/-- A reset at entry to RUNNING after the change of the capture state: the record is OFF as configured, and no opening
entry is written (R23, R171); one after the write of STATION_START, and one before the step. -/
theorem test_reset_within_entry_to_running :
    let station := { settingUp.sc.config.station with capture := false }
    let s : State :=
      { settingUp with sc := { settingUp.sc with config := { settingUp.sc.config with station } } }
    let t (passed : Nat) := after (.resetPin (.inStep (.setupWindowExpiry 0#12) passed)) s
    (t 0).cc.record.st = .off ∧ (t 0).hr.nextSeq = 1 ∧ (t 0).hr.check = .matching ∧ (t 1).hr.nextSeq = 2 ∧
      (t 3).hr.nextSeq = 3 ∧ (t 5).cc.record.st = .armed ∧
      (after (.resetPin .between) s).cc.record.st = .armed := by decide +kernel

/-- A reset at the end of the handling of a channel's excursion: the capture it originated is kept, and the snapshot that
the scan would have handed on next is never produced (R82). -/
theorem test_reset_between_events_of_a_scan :
    let x : ChannelSetting :=
      { enable := true, triggerHigh := true, triggerLow := false, snapshot := true, high := 3000, low := 1000,
        hysteresis := 100, qualifyScans := 1 }
    let s : State := { up with
      sc := { up.sc with config := { up.sc.config with
        analog := { channels := List.replicate 4 x, interval := 20, dither := false } } }
      an := { up.an with
        settled := true, scan := some (.counted 990), checkPos := some 1, intervalPos := some 20, offset := some 0 } }
    let readings : Conversions := ⟨3500#12, 2000#12, 2000#12, 2000#12, 4095#12, 0#12⟩
    let t := after (.resetPin (.inStep (.scanEvaluation 5 readings) 1)) s
    t.hr.nextSeq = 3 ∧ t.hr.check = .matching ∧ t.cc.record.st.isPost = true ∧ t.cc.serial = 1 ∧
      (after (.scanEvaluation 5 readings) s).hr.nextSeq = 7 ∧
      (after (.resetPin (.inStep (.scanEvaluation 5 readings) 0)) s).hr.nextSeq = 2 := by decide +kernel

/-- A reset inside a heard frame: PEER_SEEN and the GAP are kept, and the frame's record is not made (R19, R101). -/
theorem test_reset_within_a_heard_frame :
    let s := onLine (.receiving (some 990)) up
    let payload := eventPayload
      { number := 1, drops := 2, records := [{ draft with kind := .inputRise, subject := some 4, originSeq := some 9 }] }
    let t := after (.resetPin (.inStep (.eventReceived 5 3#8 31#8 payload) 2)) s
    t.hr.nextSeq = 3 ∧ t.hr.check = .matching ∧ (t.hr.entry 2).map (·.body.kind) = some .gap ∧
      (after (.eventReceived 5 3#8 31#8 payload) s).hr.nextSeq = 4 := by decide +kernel

/-- The reset of an owed RESTART strikes as the others do: between steps it keeps the history; inside an operation it
leaves the check unequal, and HISTORY_LOST with value RESTART_REQUEST follows; inside a step it leaves what the step had
done (R16, R19, R163, R172). The twelfth collision of the reply brings it too. -/
theorem test_restart_strikes :
    let s : State := { onLine (.transmitting 900 (outgoing .reply) none) readyInput with
      rh := { slot := none, restartOwed := true } }
    let t (struck : Struck) := after (.transmissionComplete struck) s
    let u := after (.resetEnd ⟨7#5, false, false⟩ ⟨false, []⟩ 50 .completes 0#12) (t .inFlight)
    let worn : State := { s with lc := { s.lc with attempts := ⟨0, 11, 0, 0⟩ } }
    (t .between).hr.check = .matching ∧ (t .between).sc.cause = .restartRequest ∧ (t .between).hr.nextSeq = 1 ∧
      (t .inFlight).hr.check = .mismatched ∧ u.hr.nextSeq = 4 ∧
      (u.hr.entry 1).map (·.body.kind) = some .historyLost ∧ (u.hr.entry 1).map (·.body.value) = some (some 3) ∧
      (t (.inStep (.inputEdge 0 11) 0)).hr.nextSeq = 2 ∧ (t (.inStep (.inputEdge 0 11) 0)).cc.record.st = .armed ∧
      (t (.inStep (.inputEdge 0 11) 1)).cc.record.st.isPost = true ∧
      (after (.collision 1 .inFlight) worn).hr.check = .mismatched ∧
      (after (.collision 1) worn).hr.check = .matching ∧
      (after (.collision 1) worn).sc.cause = .restartRequest := by decide +kernel

/-- A TRIGGER frame as it is heard. -/
def triggerHeard : Heard :=
  Frame.heard { kind := kindTrigger, src := 3#8, dst := 31#8, payload := [3#8, 1#8, 0#8, 0#8, 0#8, 0#8, 1#8, 0xF4#8] }

/-- A delimiter changed in one symbol, or a violation before the start delimiter, leaves no valid frame (R138, R184). -/
theorem test_malformed_delimiters :
    triggerHeard.frame.isSome = true ∧ ({ triggerHeard with start := endDelimiter } : Heard).frame = none ∧
      ({ triggerHeard with finish := endDelimiter.dropLast ++ [.vHigh] } : Heard).frame = none ∧
      ({ triggerHeard with lead := [.vLow] } : Heard).frame = none := by decide +kernel

/-- A TRIGGER frame whose content is changed by `g`, as it is heard. -/
def garbled (g : List Symbol → List Symbol) : Heard := { triggerHeard with content := g triggerHeard.content }

/-- The other bit. -/
def flipped : Symbol → Symbol
  | .bit b => .bit (!b)
  | .vHigh => .vLow
  | .vLow => .vHigh

/-- One bit changed in header, length, payload or check, a byte too few or too many, left-over bits, or a violation leave
no valid frame (R138). -/
theorem test_broken_contents :
    (garbled id).frame.isSome = true ∧
      (∀ i ∈ [0, 8, 31, 32, 95, 96, 111], (garbled fun l => l.modify i flipped).frame = none) ∧
      (garbled fun l => l.drop 8).frame = none ∧ (garbled fun l => l ++ List.replicate 8 (.bit false)).frame = none ∧
      (garbled fun l => l ++ [.bit false]).frame = none ∧ (garbled fun l => l.set 50 .vHigh).frame = none := by
  decide +kernel

/-- The content read as a frame again, once its check is made equal: its own length alone fits it (R138). -/
theorem test_length_fits_content :
    let covered (n : Byte) : List Byte := [kindTrigger, 3#8, 31#8, n] ++ List.replicate 8 0#8
    let bytes (n : Byte) : List Byte := covered n ++ natBE 2 (crc (covered n)).toNat
    (frameOfContent (bytes 8#8)).isSome = true ∧ frameOfContent (bytes 7#8) = none ∧ frameOfContent (bytes 9#8) = none := by
  decide +kernel

/-- Table 10-3: the lengths of each kind, a kind not listed, and the source and destination tests of R138. -/
theorem test_broken_headers :
    let broken (kind src dst : Byte) (n : Nat) : Bool := Frame.broken { kind, src, dst, payload := List.replicate n 0#8 }
    broken 0x11#8 3#8 31#8 8 = false ∧ broken 0x11#8 3#8 31#8 9 = true ∧ broken 0x13#8 3#8 31#8 63 = false ∧
      broken 0x13#8 3#8 31#8 24 = true ∧ broken 0x26#8 0#8 7#8 0 = true ∧ broken 0x31#8 3#8 31#8 51 = false ∧
      broken 0x31#8 3#8 31#8 59 = true ∧ broken 0x77#8 30#8 255#8 64 = false ∧ broken 0x77#8 30#8 255#8 65 = true ∧
      broken 0x77#8 31#8 255#8 0 = true ∧ broken 0x77#8 30#8 0#8 0 = true := by decide +kernel

/-- Table 7-2: the buffer is empty, or holds one frame being received, staged or sent (R126). -/
theorem test_frame_buffer :
    let out := outgoing .beacon
    up.frameBuffer = .empty ∧ (onLine (.receiving none) up).frameBuffer = .receiving ∧
      (onLine (.staged 990 out) up).frameBuffer = .staged out ∧
      (onLine (.transmitting 990 out none) up).frameBuffer = .sent out ∧
      (after (.receptionBroken 5 .becameQuiet) (onLine (.receiving none) up)).frameBuffer = .empty := by decide +kernel

/-- A frame broken at its end delimiter leaves the activity time running; a valid one starts it again (R141). -/
theorem test_activity_time_after_a_frame :
    let r : State := { onLine (.receiving (some 990)) up with
      lc := { (onLine (.receiving (some 990)) up).lc with activeSince := some 980 } }
    let broken := after (.receptionBroken 5 (.atDelimiter { triggerHeard with finish := [] })) r
    let valid := after (.triggerReceived 5 3#8 31#8 [3#8, 1#8, 0#8, 0#8, 0#8, 0#8, 1#8, 0xF4#8]) r
    broken.lc.broken = 1 ∧ broken.lc.activeSince = some 980 ∧ broken.lc.quietSince = none ∧
      valid.lc.activeSince = some 1005 ∧ (after (.lineBecomesQuiet 0) valid).lc.quietSince = some 1005 := by
  decide +kernel

/-- A broken frame counts as broken; a valid one as good. -/
theorem test_reception_counts :
    let r := onLine (.receiving (some 990)) up
    (after (.triggerReceived 5 3#8 31#8 [3#8, 1#8, 0#8, 0#8, 0#8, 0#8, 1#8, 0xF4#8]) r).lc.good = 1 ∧
      (after (.triggerReceived 5 3#8 31#8 [3#8]) r).lc.broken = 1 ∧
      (after (.triggerReceived 5 3#8 31#8 [3#8, 1#8, 0#8, 0#8, 0#8, 0#8, 1#8, 0xF4#8]) r).capt = true := by
  decide +kernel

/-! ## Each statement's hypotheses are met -/

theorem test_up_ring_sound : up.hr.Sound :=
  ⟨by decide +kernel, by decide, by decide, by decide, by decide, fun q h1 h2 => by
    simp [up, State.reset, Ring.initial] at h1 h2; omega⟩

/-- The ring at its last sequence number, empty. -/
theorem test_top_ring_sound : (atSeq (seqLimit - 1) up).hr.Sound :=
  ⟨by decide +kernel, by decide, by decide, by decide, by decide, fun q h1 h2 => by
    simp [atSeq, up, State.reset, Ring.initial, seqLimit] at h1 h2; omega⟩

/-- The ring with one entry. -/
theorem test_one_entry_sound : (up.hr.store draft).Sound := test_up_ring_sound.store (by decide) draft

theorem test_up_router_sound : up.er.Sound :=
  ⟨by decide, by decide, by decide, fun b h => by simp [up, State.reset, Router.initial] at h⟩

theorem test_up_capture_sound : up.CaptureSound := by
  constructor
  case postRuns => simp [up, State.reset, CaptureRecord.cleared, CaptureState.isPost]
  all_goals decide

theorem test_up_startup_sound : up.StartupSound := by
  constructor <;> decide

theorem test_up_conditions_sound : up.ConditionsSound := by
  constructor <;> decide

theorem test_up_line_sound : up.LineSound := by
  constructor <;>
    first | decide | (intro src; cases src <;> decide) | simp [up, LineController.initial]

theorem test_up_configuration_sound : up.sc.config.Sound := by
  constructor <;> decide

theorem test_up_tables_sound : up.TablesSound := by
  constructor <;> decide

/-- Each invariant statement: a sound state with a next one. -/
theorem test_meets_StepKeeps :
    (up.hr.Sound ∧ up.er.Sound ∧ up.CaptureSound ∧ up.StartupSound) ∧
      (up.ConditionsSound ∧ up.LineSound ∧ up.sc.config.Sound ∧ up.TablesSound) ∧ step up = .next (up.advance 1) :=
  ⟨⟨test_up_ring_sound, test_up_router_sound, test_up_capture_sound, test_up_startup_sound⟩,
    ⟨test_up_conditions_sound, test_up_line_sound, test_up_configuration_sound, test_up_tables_sound⟩, rfl⟩

theorem test_meets_TimeRunsAndTheCountHoldsAtItsTop :
    up.sc.resetHeld = false ∧ State.reset.sc.resetHeld = true ∧ up.tu.timeCount ≤ timeTop ∧ up.pending = [] ∧
      State.reset.pending = [] := by decide

theorem test_meets_TimeCountNeverFallsBetweenResets :
    up.tu.timeCount ≤ timeTop ∧ up.sc.resetHeld = false ∧ (after .timeCountTop up).sc.resetHeld = false ∧
      exec .timeCountTop up = .next (after .timeCountTop up) := ⟨by decide, by decide, by decide, rfl⟩

theorem test_meets_PlainWriteStoresTheNextEntry :
    (atSeq (seqLimit - 1) up).hr.Sound ∧ up.sc.op = .running ∧ up.cc.record.st.isFrozen = false ∧
      up.cc.record.st.isPost = false ∧ (atSeq (seqLimit - 1) up).hr.nextSeq < seqLimit :=
  ⟨test_top_ring_sound, by decide, by decide, by decide, by decide⟩

theorem test_meets_WritesAreRefusedOrCountTowardsTheFreeze :
    settingUp.sc.op ≠ .running ∧ (inFrozen.sc.op = .running ∧ inFrozen.cc.record.st.isFrozen = true) ∧
      ((inPost 253 []).sc.op = .running ∧ (inPost 253 []).cc.record.st = .post (current tag9) ∧
        (inPost 253 []).hr.nextSeq < seqLimit ∧ 253 + 1 ≠ (inPost 253 []).station.postCount) ∧
      254 + 1 = (inPost 254 []).station.postCount ∧ (inPost 254 []).cc.postClock = some (.running 400) := by decide

theorem test_meets_SequenceRestartBeginsTheRingAgain :
    let s := atSeq seqLimit (inPost 3 [])
    s.hr.positions.length = 512 ∧ s.sc.op = .running ∧ s.cc.record.st.isFrozen = false ∧ s.hr.nextSeq = seqLimit ∧
      s.cc.record.st.isPost = true ∧ (atSeq seqLimit up).cc.record.st.isPost = false := by decide +kernel

theorem test_meets_ReadsReturnHeldEntriesInPlace :
    up.hr.Sound ∧ up.hr.held = 0 ∧ (up.hr.store draft).Sound ∧ (up.hr.store draft).newestSeq < 2 ∧
      0 < (up.hr.store draft).held ∧ 1 ≤ (up.hr.store draft).newestSeq ∧ 1 = max 0 (up.hr.store draft).oldestSeq :=
  ⟨test_up_ring_sound, by decide, test_one_entry_sound, by decide +kernel, by decide +kernel, by decide +kernel,
    by decide +kernel⟩

/-- Events of a class announced and recorded, of one that is neither; a queue at 15 and at 16. -/
theorem test_meets_LocalEventIsWrittenThenAnnounced :
    let q : QueueEntry := { time := 0, kind := .gap, subject := none, value := none, sync := .free, ownSeq := none }
    settingUp.sc.op ≠ .running ∧ up.sc.op = .running ∧ up.station.recordMask.getLsbD Kind.inputRise.class = true ∧
      up.station.recordMask.getLsbD Kind.triggerMark.class = false ∧
      up.station.announceMask.getLsbD Kind.inputRise.class = true ∧
      up.station.announceMask.getLsbD Kind.analogSnapshot.class = false ∧ (List.replicate 15 q).length < 16 ∧
      16 ≤ (List.replicate 16 q).length ∧ up.cut = none ∧ ({ up with cut := some 0 } : State).cut = some 0 ∧
      ({ up with cut := some 1 } : State).cut = some 1 := by decide

theorem test_meets_HeardFrameWritesGapThenRecords :
    settingUp.sc.op ≠ .running ∧ up.sc.op = .running ∧ up.pm.peers[1 - 1]? = some PeerEntry.cleared ∧
      up.pm.peers[30 - 1]? = some PeerEntry.cleared ∧ PeerEntry.cleared.lastBatch ≠ some 255 ∧
      ({ PeerEntry.cleared with lastBatch := some 1 } : PeerEntry).lastBatch = some 1 ∧ up.cut = none ∧
      up.station.heardMask.getLsbD 6 = true ∧ ({ up with cut := some 0 } : State).cut = some 0 ∧ 0 < [draft].length ∧
      [draft].take (0 + 1) = [draft] := by decide

theorem test_meets_TagsAreOrderedByTimeThenOrigin :
    tag3.earlier tag9 = true ∧ tag9.earlier { tag9 with time := 501 } = true ∧ tag3.time = tag9.time := by decide

theorem test_meets_TriggerRequestOriginatesInArmedAlone :
    inFrozen.cc.record.st ≠ .armed ∧ up.sc.op = .running ∧ up.cc.record.st = .armed ∧
      (atSeq (seqLimit - 1) up).hr.nextSeq < seqLimit ∧
      1 = (if up.cc.serial ≥ 255 then 1 else up.cc.serial + 1) ∧ 1000 = none.getD up.tu.timeCount ∧
      (atSeq seqLimit up).hr.nextSeq = seqLimit ∧ (atSeq seqLimit up).cc.record.st = .armed ∧
      (after (.inputEdge 5 11) (atSeq (seqLimit - 1) readyInput)).hr.nextSeq = 3 ∧
      ((after (.inputEdge 5 11) (atSeq (seqLimit - 1) readyInput)).hr.entry 2).map (·.body.kind) = some .triggerMark := by
  decide +kernel

theorem test_meets_PeersAreJoinedInArmedAlone :
    settingUp.sc.op ≠ .running ∧ (holding .off up).cc.record.st = .off ∧ (holding .off up).sc.op = .running ∧
      up.sc.op = .running ∧ inFrozen.cc.record.st.held = true ∧ (inPost 0 []).cc.record.st.held = true ∧
      up.cc.record.st = .armed ∧ up.hr.nextSeq < seqLimit ∧ (atSeq seqLimit up).hr.nextSeq = seqLimit ∧
      ((atSeq seqLimit up).takeTrigger tag3).cc.record.st.current.map (·.markSeq) = some 2 ∧
      (up.takeGossip .post (some tag3)).cc.record.st.isPost = true ∧ CaptureCode.frozen ≠ .post := by decide +kernel

/-- The same tag, a seen tag, an earlier tag, a later one; five and six tags seen. -/
theorem test_meets_ComparisonAdoptsTheEarlierTag :
    let seen : List TimedTag := (List.range 6).map fun i => { tag := { origin := 20, serial := i + 1 }, time := 600 }
    (inPost 0 seen).cc.record.st.current = some (current tag9) ∧ tag9.tag = (current tag9).tag ∧
      ({ origin := 20, serial := 6 } : Tag) ∈ seen.map (·.tag) ∧ tag3.tag ≠ (current tag9).tag ∧
      tag3.tag ∉ seen.map (·.tag) ∧ tag3.earlier { tag := tag9.tag, time := tag9.time } = true ∧
      tag9.earlier { tag := tag3.tag, time := tag3.time } = false ∧ (seen.take 5).length < 6 ∧
      inFrozen.cc.record.st.current = some (current tag9) := by decide

theorem test_meets_WithdrawalGivesUpAStagingOnly :
    let s := { inPost 0 [] with cc := { (inPost 0 []).cc with pendingTrigger := some tag9 } }
    up.cc.pendingTrigger = none ∧ s.cc.pendingTrigger ≠ none ∧
      (onLine (.staged 990 (outgoing .trigger)) s).lc.line = .staged 990 (outgoing .trigger) ∧
      (outgoing .trigger).source = .trigger ∧ (outgoing .beacon).source ≠ .trigger ∧
      (onLine (.transmitting 990 (outgoing .trigger) none) s).lc.line =
        .transmitting 990 (outgoing .trigger) none := by decide

theorem test_meets_ReleaseClearsTheRecordAndReportsIt :
    inFrozen.cc.record.st = .frozen (current tag9) .timeElapsed ∧ inFrozen.sc.op = .running ∧
      inFrozen.hr.nextSeq < seqLimit ∧ (atSeq seqLimit inFrozen).hr.nextSeq = seqLimit ∧
      (atSeq seqLimit inFrozen).cc.record.st = .frozen (current tag9) .timeElapsed ∧
      (holding (.frozen (current tag9) .cutShort) settingUp).cc.record.st = .frozen (current tag9) .cutShort ∧
      (holding (.frozen (current tag9) .cutShort) settingUp).sc.op = .setup := by decide

theorem test_meets_CaptureTimersFreezeAndRelease :
    (inPost 0 []).cc.record.st = .post (current tag9) ∧ (inPost 0 []).cc.postClock = some (.running 400) ∧
      inFrozen.cc.record.st.isPost = false ∧ inFrozen.cc.record.st = .frozen (current tag9) .timeElapsed ∧
      inFrozen.cc.frozenClock = some (.running 600) ∧ inFrozen.station.holdLimit = 0 ∧
      0 < ({ profileStation false with holdLimit := 1 } : StationSection).holdLimit := by decide

theorem test_meets_CaptIsActiveWhileACaptureIsHeld :
    up.sc.captHeld = false ∧ State.reset.sc.captHeld = true ∧
      exec .resetPowerOn up = .next (after .resetPowerOn up) ∧
      exec (.resetPin .inFlight) up = .next (after (.resetPin .inFlight) up) := ⟨rfl, rfl, rfl, rfl⟩

theorem test_meets_EdgesStartAndEndQualifications :
    let q : Qualification := { edgeTime := 990, target := true, since := 990 }
    let r : InputRecord := { level := some false, qual := none, mode := .normal none none }
    let s := withInput (setting .both 1 0 0) { r with qual := some q } up
    settingUp.sc.op ≠ .running ∧ ((withInput (setting .off 0 0 0) r up).inputSetting 11).sensitivity = .off ∧
      s.sc.op = .running ∧ (s.inputSetting 11).sensitivity ≠ .off ∧ (s.input 11).level = some false ∧
      (s.input 11).qual = some q ∧ 0 < (s.inputSetting 11).qualify ∧
      ((withInput (setting .both 0 0 0) r up).inputSetting 11).qualify = 0 ∧
      ((withInput (setting .both 0 0 0) r up).input 11).qual = none := by decide

/-- No chatter limit, no window, a count one below the limit and one further below. -/
theorem test_meets_QualifiedChangeIsProcessedByItsMode :
    let w (k : Nat) : ChatterWindow := { count := k, since := 0 }
    let s (c : Nat) (mode : InputMode) := withInput (setting .rise 1 1 c) { level := some false, qual := none, mode } up
    ((s 4 (.suspended 5)).input 11).mode = .suspended 5 ∧ ((s 0 (.normal none none)).input 11).mode = .normal none none ∧
      ((s 0 (.normal none none)).inputSetting 11).chatterLimit = 0 ∧
      0 < ((s 4 (.normal none none)).inputSetting 11).chatterLimit ∧ (w 3).count + 1 = 4 ∧ (w 2).count + 1 ≠ 4 ∧
      ((s 4 (.normal (some (w 3)) none)).input 11).mode = .normal (some (w 3)) none := by decide

theorem test_meets_InputTimersReportPersistenceAndRest :
    let s (mode : InputMode) := withInput (setting .rise 1 1 4) { level := some true, qual := none, mode } up
    let n : Fin 12 := 11
    (s (.suspended 5)).sc.op = .running ∧ ((s (.suspended 5)).inputSetting n).sensitivity ≠ .off ∧
      ((s (.normal none (some ⟨0, 0⟩))).input n).mode = .normal none (some ⟨0, 0⟩) ∧
      ((s (.normal (some ⟨1, 0⟩) none)).input n).mode = .normal (some ⟨1, 0⟩) none ∧
      ((s (.suspended 5)).input n).mode = .suspended 5 ∧ ((s (.suspended 5)).input n).level = some true := by decide

/-- The settling scan, the first counted scan, and scans at both ends of the check and the interval cycle. -/
theorem test_meets_ScanStartCountsScansFromTheSecond :
    let s (pos iv : Option Nat) : State := { up with an := { up.an with settled := true, checkPos := pos, intervalPos := iv } }
    up.sc.op = .running ∧ up.an.nextScan = some 1000 ∧ up.an.scan = none ∧ up.an.settled = false ∧
      (s none none).an.settled = true ∧ (s (some 64) none).an.checkPos = some 64 ∧ up.sc.config.analog.interval = 0 ∧
      0 < profile1.analog.interval ∧ profile1.analog.dither = true ∧
      1 = (if 1000 ≥ profile1.analog.interval then 1 else 1000 + 1) ∧
      1000 = (if 999 ≥ profile1.analog.interval then 1 else 999 + 1) := by decide

theorem test_meets_GeneratorsStayInTheirRanges : 1 ≤ 32767 ∧ ditherStep 32767 = 32766 ∧ backoffStep 1 = 16384 := by
  decide

theorem test_meets_ScanEvaluationRunsChannelsThenSnapshots :
    let s (x : Scan) (pos : Nat) (r : Reference) : State :=
      { up with an := { up.an with scan := some x, checkPos := some pos, reference := r } }
    (s (.settling 9) 1 .healthy).an.scan = some (.settling 9) ∧ (s (.counted 9) 63 .healthy).an.checkPos ≠ some 64 ∧
      (s (.counted 9) 63 .healthy).an.scan = some (.counted 9) ∧ (s (.counted 9) 1 (.fault 0)).an.reference ≠ .healthy ∧
      (s (.counted 9) 1 .healthy).an.reference = .healthy ∧ (s (.counted 9) 64 .healthy).an.checkPos = some 64 ∧
      up.sc.config.analog.channels[3]? = some profileChannelOff ∧ profileChannelOff.enable = false ∧
      profile1.analog.channels[0]? = some profileChannel ∧ profileChannel.enable = true ∧ profileChannel.snapshot = true ∧
      up.an.channels[3]? = some (.normal none none) ∧
      Excursion.evaluate profileChannel 3501 9 (.normal (some ⟨2, 7⟩) none) =
        (.high none none, some { kind := .analogHigh, time := 7 }) ∧
      Excursion.evaluate profileChannel 3501 9 (.normal none none) = (.normal (some ⟨1, 9⟩) none, none) := by decide

/-- A check scan: a failing check is a fault scan, which evaluates nothing; a passing one evaluates that same scan. -/
theorem test_check_scan :
    let s : State := { up with
      sc := { up.sc with config := profile1 }
      an := { up.an with scan := some (.counted 9), checkPos := some 64
                         channels := List.replicate 4 (.normal (some ⟨2, 7⟩) none) } }
    let t := after (.scanEvaluation 5 ⟨3501#12, 0xFFF#12, 0xFFF#12, 0xFFF#12, 4031#12, 0#12⟩) s
    let u := after (.scanEvaluation 5 ⟨3501#12, 600#12, 600#12, 600#12, 4032#12, 0#12⟩) s
    t.an.reference = .fault 0 ∧ t.flt = true ∧ t.an.channels = s.an.channels ∧
      (t.hr.entry 1).map (·.body.kind) = some .analogFault ∧ t.hr.nextSeq = 2 ∧
      u.an.reference = .healthy ∧ (u.hr.entry 1).map (·.body) = some
        { time := 7, origin := 7, originSeq := none, kind := .analogHigh, subject := some 0, value := some 3501,
          capture := none, sync := .free } ∧
      u.an.channels = [.high none none, .normal none none, .normal none none, .normal none none] := by decide +kernel

/-- Readings at the bounds: 4032 and 63 pass, 4031 or 64 fails; pass counts 1 and 2. -/
theorem test_meets_ReferenceFaultEndsAfterThreePasses :
    let fails (h l : BitVec 12) := decide (h.toNat < 4032) || decide (63 < l.toNat)
    fails 4032#12 63#12 = false ∧ fails 4031#12 63#12 = true ∧ fails 4032#12 64#12 = true ∧
      up.an.reference = .healthy ∧ ¬ (2 < 2) ∧ 1 < 2 := by decide

/-- H 3500, L 500, h 100: readings on each side of each bound. -/
theorem test_meets_ExcursionFollowsItsRuns :
    profileChannel.valid = true ∧ (profileChannel.low ≤ 500 ∧ 3500 ≤ profileChannel.high) ∧
      (profileChannel.high < 3501 ∧ 499 < profileChannel.low) ∧
      (profileChannel.high - profileChannel.hysteresis ≤ 3400 ∧ 3399 < profileChannel.high - profileChannel.hysteresis) ∧
      (600 ≤ profileChannel.low + profileChannel.hysteresis ∧ profileChannel.low + profileChannel.hysteresis < 601) := by
  decide

theorem test_meets_TimeUnitTimersFallDue :
    up.sc.op = .running ∧ up.tu.schedule = some ⟨0, 0⟩ ∧ up.tu.beaconPending = false ∧ up.tu.sync ≠ .synced ∧
      ({ up.tu with beaconPending := true, sync := .synced, syncSince := some 0 } : TimeUnit).beaconPending = true := by
  decide

/-- Tolerance 10: offsets of -11, -10, 10 and 11, and a step beyond the top value. -/
theorem test_meets_BeaconStepsTheCountForward :
    up.tu.timeCount ≤ timeTop ∧ 989 + up.station.tolerance < 1000 ∧ 1000 ≤ 990 + up.station.tolerance ∧
      1010 ≤ 1000 + up.station.tolerance ∧ 1000 + up.station.tolerance < 1011 ∧
      timeTop = min (timeTop - 5 + (1011 - 1000)) timeTop := by decide

theorem test_meets_PresenceFollowsThePeersFrames :
    let s : State := { up with pm := { up.pm with peers := up.pm.peers.set 29 { PeerEntry.cleared with present := true } } }
    s.pm.peers[1 - 1]? = some PeerEntry.cleared ∧ PeerEntry.cleared.present = false ∧
      s.pm.peers[(30#5).toNat - 1]? = some { PeerEntry.cleared with present := true } ∧ 30#5 ≠ 0#5 := by decide

theorem test_meets_ClashFrameSetsTheConditionForEightPeriods :
    let r := onLine (.receiving (some 990)) up
    r.lc.line = .receiving (some 990) ∧
      Frame.broken { kind := 0x28#8, src := r.addressByte, dst := 31#8, payload := [] } = false ∧
      r.sc.conditions.addressClash = false ∧
      (after (.clashFrameReceived 1 0x28#8 31#8 []) r).sc.conditions.addressClash = true ∧
      (after (.clashFrameReceived 1 0x28#8 31#8 []) r).pm.clashSince = some 1001 := by decide

/-- The idle gap met at 16 microseconds and not at 15; each item alone. -/
theorem test_meets_ArbiterStagesTheHighestPriority :
    let later : State := { up with lc := { up.lc with quietSince := some 985 } }
    up.lc.line = .quiet ∧ up.lc.backoffEnd = none ∧ up.lc.quietSince = some 984 ∧ 984 + 16 ≤ up.tu.elapsed ∧
      later.tu.elapsed < 985 + 16 ∧ up.sc.op = .running ∧ up.cc.pendingTrigger = none ∧ up.rh.slot = none ∧
      up.tu.beaconPending = false ∧ up.er.batch = none ∧ up.er.queue = [] ∧ up.er.drops = 0 ∧
      settingUp.sc.op = .setup ∧ settingUp.rh.slot = none ∧ State.reset.sc.op = .starting ∧
      (up.placeReply 0x34#8 []).rh.slot ≠ none := by decide

theorem test_meets_StagingBuildsTheFrameFromItsItem :
    (up.placeReply 0x34#8 []).rh.slot = some { kind := 0x34#8, src := 7#8, dst := 31#8, payload := [] } ∧
      up.er.batch = none ∧
      ({ up with er := { up.er with batch := some ⟨1, 0, 0⟩ } } : State).er.batch = some ⟨1, 0, 0⟩ ∧
      ({ up with cc := { up.cc with pendingTrigger := some tag9 } } : State).cc.pendingTrigger = some tag9 := by decide

theorem test_meets_LineMomentsBeginReceptionsAndStampFrames :
    let out := outgoing .beacon
    (up.sc.op = .running ∧ up.lc.activeSince = none ∧ up.lc.line = .quiet) ∧ settingUp.sc.op = .setup ∧
      (onLine .stuck up).lc.line = .stuck ∧ (onLine .backoff up).lc.line = .backoff ∧
      (onLine (.staged 990 out) up).lc.line = .staged 990 out ∧
      (after (.activityBegins 1) up).lc.activeSince = some 1001 ∧ (after (.activityBegins 1) up).lc.quietSince = none ∧
      (after (.activityBegins 1) up).lc.line = .receiving none ∧
      (onLine (.transmitting 990 out none) up).lc.line = .transmitting 990 { source := .beacon, frame := out.frame } none ∧
      (onLine (.transmitting 990 (outgoing .reply) none) up).lc.line =
        .transmitting 990 { source := .reply, frame := out.frame } none := by
  decide

theorem test_meets_CollisionStartsADrawnBackoff :
    let s := onLine (.transmitting 990 (outgoing .beacon) none)
      { up with lc := { up.lc with attempts := ⟨0, 0, 10, 0⟩ } }
    s.lc.line = .transmitting 990 (outgoing .beacon) none ∧ s.lc.backoffEnd = none ∧
      11 = s.lc.attempts.get (outgoing .beacon).source + 1 ∧ 11 < 12 ∧
      (onLine (.transmitting 990 (outgoing .trigger) (some 11)) up).lc.line =
        .transmitting 990 (outgoing .trigger) (some 11) ∧
      (after (.collision 1) (onLine (.transmitting 990 (outgoing .trigger) (some 11)) up)).lc.collisions = 1 ∧
      (after (.collision 1) (onLine (.transmitting 990 (outgoing .trigger) (some 11)) up)).lc.abandoned = 0 := by
  decide +kernel

theorem test_meets_TwelfthCollisionAbandonsTheItem :
    let s (src : Source) := onLine (.transmitting 990 (outgoing src) none)
      { up with
        lc := { up.lc with attempts := ⟨11, 11, 11, 11⟩ }, cc := { up.cc with pendingTrigger := some tag9 }
        er := { up.er with batch := some ⟨1, 0, 0⟩ } }
    (s .trigger).lc.line = .transmitting 990 (outgoing .trigger) none ∧ (s .trigger).lc.backoffEnd = none ∧
      (s .trigger).lc.attempts.get .trigger = 11 ∧ (s .event).lc.attempts.get .event = 11 ∧
      (s .trigger).cc.pendingTrigger = some tag9 ∧ (s .event).er.batch = some ⟨1, 0, 0⟩ ∧
      (s .reply).rh.restartOwed = false ∧
      ({ (s .reply) with rh := { slot := none, restartOwed := true } } : State).rh.restartOwed = true := by decide

theorem test_meets_BackoffAndIdleGapFreeTheLine :
    ({ up with lc := { up.lc with backoffEnd := some 1032 } } : State).lc.backoffEnd = some 1032 ∧
      up.lc.quietSince = some 984 ∧ up.lc.line ≠ .stuck ∧ (onLine .stuck up).lc.quietSince = some 984 ∧
      (onLine .stuck up).lc.line = .stuck := by decide

theorem test_meets_CompletionEndsTheItemAtItsSource :
    let s := onLine (.transmitting 990 (outgoing .event) none) { up with er := { up.er with batch := some ⟨1, 0, 0⟩ } }
    s.lc.line = .transmitting 990 (outgoing .event) none ∧ s.lc.quietSince = none ∧ s.er.batch = some ⟨1, 0, 0⟩ ∧
      s.er.drops ≤ 255 ∧ s.rh.restartOwed = false ∧
      ({ onLine (.transmitting 990 (outgoing .reply) none) up with rh := { slot := none, restartOwed := true } }
        : State).rh.restartOwed = true ∧
      (onLine (.transmitting 990 (outgoing .reply) (some 3)) up).lc.line =
        .transmitting 990 (outgoing .reply) (some 3) := by decide

theorem test_meets_MillisecondOfActivitySticksTheLine :
    let s (l : LineState) : State := { onLine l up with lc := { (onLine l up).lc with activeSince := some 10 } }
    (s (.receiving none)).lc.activeSince = some 10 ∧ (s (.receiving none)).lc.line = .receiving none ∧
      (s .backoff).lc.line = .backoff ∧ (s .quiet).lc.line = .quiet := by decide

theorem test_meets_ReceptionsEndBrokenOrValid :
    let r := onLine (.receiving (some 990)) up
    r.lc.quietSince = none ∧ r.lc.line = .receiving (some 990) ∧
      ({ triggerHeard with content := [.vHigh] } : Heard).frame = none ∧ triggerHeard.frame.isSome = true ∧
      Frame.broken { kind := kindBeacon, src := 31#8, dst := 31#8, payload := [] } = true ∧
      (onLine (.receiving none) up).lc.line = .receiving none ∧
      frameOfSymbols triggerHeard.content = triggerHeard.frame ∧ up.lc.line = .quiet ∧
      (onLine (.staged 990 (outgoing .beacon)) up).lc.line = .staged 990 (outgoing .beacon) ∧
      (onLine (.transmitting 990 (outgoing .beacon) none) up).lc.line = .transmitting 990 (outgoing .beacon) none := by
  decide +kernel

/-- A beacon, a TRIGGER and an EVENT frame from address 30: one that R188 takes and one that it refuses. -/
theorem test_meets_PeerFramesReachTheirBlocksInOrder :
    let r := onLine (.receiving (some 990)) up
    r.lc.line = .receiving (some 990) ∧ 30#8 ≠ 0#8 ∧ 30#8 ≠ r.addressByte ∧ 9#8 ≠ r.addressByte ∧ 9#8 ≠ 31#8 ∧
      (∃ b, parseBeacon [0#8, 0#8, 0#8, 0#8, 0#8, 9#8, 2#8, 1#8] = some b) ∧
      parseBeacon [0#8, 0#8, 0#8, 0#8, 0#8, 9#8, 3#8, 1#8] = none ∧
      (∃ z, parseTrigger [30#8, 255#8, 0#8, 0#8, 0#8, 0#8, 0#8, 9#8] = some z) ∧
      parseTrigger [31#8, 1#8, 0#8, 0#8, 0#8, 0#8, 0#8, 9#8] = none ∧
      (∃ e, parseEvent 30 [1#8, 0#8, 0#8] = some e) ∧ parseEvent 30 [0#8, 0#8, 0#8] = none ∧
      Frame.broken { kind := kindTrigger, src := 30#8, dst := 31#8, payload := List.replicate 8 0#8 } = false ∧
      Frame.broken { kind := 0x77#8, src := 0#8, dst := 9#8, payload := List.replicate 64 0#8 } = false := by
  refine ⟨by decide, by decide, by decide, by decide, by decide, ⟨_, rfl⟩, by decide, ⟨_, rfl⟩, by decide, ⟨_, rfl⟩,
    by decide, by decide, by decide⟩

theorem test_meets_ReadingRequestsPlaceTheirReplies :
    let r := onLine (.receiving (some 990)) up
    r.lc.line = .receiving (some 990) ∧ 7#8 ≠ 0#8 ∧ 7#8 = r.addressByte ∧ 31#8 ≠ r.addressByte ∧
      r.rh.restartOwed = false ∧ (up.lc.line = .quiet ∨ up.lc.line = .backoff) ∧
      up.hr.read 1 2 = (.noneYet, []) ∧ draft.origin ≤ 30 ∧ 30 ≠ up.address ∧
      up.pm.peers[30 - 1]? = some PeerEntry.cleared ∧ PeerEntry.cleared.present = false := by decide

/-- An ENTRIES payload with one entry, and the reports of the own address, an absent peer, and present ones. -/
theorem test_entries_and_peer_list :
    let p (b : Option BeaconPart) : PeerEntry := { present := true, lastFrame := 0, lastBatch := none, beacon := b }
    let s : State := { up with pm := { up.pm with peers := (up.pm.peers.set 0 (p none)).set 29 (p (some ⟨.synced, .post⟩)) } }
    ({ up with hr := up.hr.store draft } : State).entriesPayload 0 =
        [1#8, 1#8, 0#8, 0#8, 0#8, 1#8] ++ recordBytes draft ∧
      up.entriesPayload 1 = [2#8, 0#8] ∧ s.peerReport 7 = 0x81#8 ∧ s.peerReport 2 = 0x37#8 ∧ s.peerReport 1 = 0x77#8 ∧
      s.peerReport 30 = 0x52#8 := by decide +kernel

theorem test_meets_StatePagesCarryTheirFigures :
    (up.tu.timeCount ≤ timeTop ∧ up.hr.Sound ∧ up.LineSound ∧ up.er.Sound ∧ up.CaptureSound) ∧
      up.cc.record.st.current = none ∧ inFrozen.cc.record.st = .frozen (current tag9) .timeElapsed :=
  ⟨⟨by decide, test_up_ring_sound, test_up_line_sound, test_up_router_sound, test_up_capture_sound⟩, rfl, rfl⟩

/-- Origins 0, 30 and 31 and serial 0; addressed and broadcast. -/
theorem test_meets_ReleaseIsDecidedAgainstTheRecord :
    let r := onLine (.receiving (some 990)) inFrozen
    r.lc.line = .receiving (some 990) ∧ (7#8 = r.addressByte ∧ 7#8 ≠ 0#8 ∧ 7#8 ≠ 31#8) ∧ r.rh.restartOwed = false ∧
      r.cc.record.st = .frozen (current tag9) .timeElapsed ∧ up.cc.record.st.isFrozen = false ∧
      (current tag9).tag = { origin := (9#8).toNat, serial := (1#8).toNat } ∧
      (current tag9).tag ≠ { origin := (30#8).toNat, serial := (1#8).toNat } ∧ 30 < (31#8).toNat ∧ 1 ≤ (30#8).toNat := by
  decide

theorem test_meets_ForceOriginatesFromArmed :
    let r := onLine (.receiving (some 990)) up
    r.lc.line = .receiving (some 990) ∧ 7#8 ≠ 0#8 ∧ r.rh.restartOwed = false ∧ 31#8 ≠ r.addressByte ∧
      7#8 = r.addressByte ∧ r.sc.op = .running ∧ r.cc.record.st = .armed ∧ inFrozen.cc.record.st.held = true ∧
      (holding .off r).cc.record.st = .off ∧ settingUp.sc.op = .setup := by decide

/-- Section numbers 0, 1 and 5; the length of a section body; addressed and broadcast. -/
theorem test_meets_ConfigReplacesItsSectionWhole :
    let r := onLine (.receiving (some 990)) settingUp
    let body := (List.replicate 6 [0x83#8, 20#8, 0#8, 20#8, 3#8]).flatten
    r.lc.line = .receiving (some 990) ∧ (7#8 = r.addressByte ∧ 7#8 ≠ 0#8 ∧ 7#8 ≠ 31#8) ∧ r.rh.restartOwed = false ∧
      r.sc.op = .setup ∧ byteAt [0#8] 0 = 0 ∧ 5 ≤ byteAt [5#8] 0 ∧ byteAt (1#8 :: body) 0 = 1 ∧
      (1#8 :: body).length = 31 ∧ parseInputs ((1#8 :: body).drop 1) = some (List.replicate 6 (profileInput true)) ∧
      parseInputs (([1#8] : List Byte).drop 1) = none ∧ up.sc.op = .running := by decide

theorem test_meets_SetupEndAndRestartAreTaken :
    let r := onLine (.receiving (some 990)) settingUp
    (9#8 ≠ 0#8 ∧ 9#8 ≠ r.addressByte ∧ 9#8 ≠ 31#8) ∧
    r.lc.line = .receiving (some 990) ∧ (7#8 = r.addressByte ∧ 7#8 ≠ 0#8 ∧ 7#8 ≠ 31#8) ∧ r.rh.restartOwed = false ∧
      r.sc.op = .setup ∧ up.sc.op = .running ∧
      ({ r with rh := { slot := none, restartOwed := true } } : State).rh.restartOwed = true ∧ r.addressByte ≠ 31#8 ∧
      (1 ≤ ([0#8] : List Byte).length ∧ ([0#8] : List Byte).length ≤ 64) := by decide

theorem test_meets_ResetsStopEveryBlockAndComplete :
    exec .resetPowerOn up = .next (after .resetPowerOn up) ∧
      exec (.resetSupplyLow .inFlight) up = .next (after (.resetSupplyLow .inFlight) up) ∧
      exec (.resetPin .between) State.reset = .next (after (.resetPin .between) State.reset) ∧
      (State.reset.sc.resetHeld = true ∧ State.reset.sc.belowPowerOn = true) ∧ up.sc.resetHeld = false ∧
      (State.runStep { readyInput with cut := some 0 } (.inputEdge 5 11)).cut = none ∧
      (State.runStep { readyInput with cut := some 1 } (.inputEdge 5 11)).cut = none ∧
      (State.runStep { readyInput with cut := some 2 } (.inputEdge 5 11)).cut ≠ none ∧
      up.cc.record.st.held = false ∧ inFrozen.cc.record.st.isFrozen = true :=
  ⟨rfl, rfl, rfl, ⟨rfl, rfl⟩, rfl, by decide +kernel, by decide +kernel, by decide +kernel, rfl, rfl⟩

/-- Addresses 0, 1, 30 and 31; both values of the SETUP strap; every case of the restore. -/
theorem test_meets_StartingRestoresAndLeadsWhereTheStrapsSay :
    let at' (a : BitVec 5) (setup : Bool) : State := { up with sc := { up.sc with straps := ⟨a, setup, false⟩ } }
    (at' 0#5 true).address = 0 ∧ (at' 31#5 false).address = 31 ∧ 1 ≤ (at' 1#5 true).address ∧
      (at' 30#5 false).address ≤ 30 ∧ (at' 1#5 true).sc.straps.setup = true ∧ up.sc.cause = .powerOn ∧
      up.hr.check = .matching ∧ ({ up with sc := { up.sc with cause := .pin } } : State).sc.cause ≠ .powerOn ∧
      up.cc.record.st.isPost = false ∧ (inPost 0 []).cc.record.st = .post (current tag9) := by decide

theorem test_meets_EntryToRunningOpensThePeriod :
    settingUp.cc.record.st.isPost = false ∧ settingUp.sc.op = .setup ∧ settingUp.sc.setupSince = some 0 ∧
      settingUp.cut = none ∧ ({ settingUp with cut := some 0 } : State).cut = some 0 ∧
      ({ settingUp with cut := some 4 } : State).cut = some (3 + 1) ∧
      natBE 6 (packStationStart .pin 0xC01#12 true ⟨true, false, false, true⟩) = [2#8, 12#8, 1#8, 1#8, 9#8, 0#8] ∧
      natBE 6 (packPeers (List.replicate 30 false |>.set 0 true |>.set 29 true)) = [0#8, 0#8, 64#8, 0#8, 0#8, 2#8] := by
  decide

theorem test_meets_SupplyMonitorWarnsAndRestores :
    let warned (t : Option Nat) : State := { up with sc := { up.sc with supply := .warning t } }
    up.sc.resetHeld = false ∧ up.sc.supply = .normal ∧ (warned none).sc.supply = .warning none ∧
      (warned (some 990)).sc.supply = .warning (some 990) := by decide

theorem test_meets_FramesReadBackFromTheirSymbols :
    Frame.broken { kind := 0x77#8, src := 30#8, dst := 255#8, payload := List.replicate 64 0#8 } = false := by decide

/-- Values at the ends of their ranges. -/
theorem test_meets_StationPayloadsReadBack :
    timeTop ≤ timeTop ∧ (1 ≤ tag3.tag.origin ∧ tag3.tag.origin ≤ 30 ∧ 1 ≤ tag3.tag.serial ∧ tag3.tag.serial ≤ 255) ∧
      [draft, draft, draft].length ≤ 3 ∧
      (draft.time ≤ timeTop ∧ draft.capture = none ∧ draft.kind.class ≠ 7 ∧
        draft.kind.subjectSort.lists 11 = true ∧ draft.subject = some 11) := by decide

/-- R188 refuses one field after another of a good EVENT payload. -/
theorem test_refused_event_payloads :
    let good := eventPayload { number := 1, drops := 0, records := [{ draft with originSeq := some 1 }] }
    let put (i : Nat) (b : Byte) := (parseEvent 3 (good.set i b)).isSome
    (parseEvent 3 good).isSome = true ∧ put 0 0#8 = false ∧ put 2 0#8 = false ∧ put 2 2#8 = false ∧ put 10 2#8 = false ∧
      put 11 31#8 = false ∧ put 12 3#8 = false ∧ put 12 4#8 = false ∧ put 13 1#8 = false ∧ put 22 0#8 = false ∧
      put 9 0x27#8 = false := by decide +kernel

/-- R188 refuses codes, lengths, tags and serials out of range in a beacon and in a TRIGGER frame. -/
theorem test_refused_beacons_and_triggers :
    let beacon (l : List Byte) := (parseBeacon (List.replicate 6 0#8 ++ l)).isSome
    let tail := List.replicate 6 0#8
    beacon [2#8, 1#8] = true ∧ beacon [3#8, 1#8] = false ∧ beacon [0#8, 2#8] = false ∧ beacon [0#8, 4#8] = false ∧
      beacon ([0#8, 3#8, 30#8, 1#8] ++ tail) = true ∧ beacon ([0#8, 1#8, 30#8, 1#8] ++ tail) = false ∧
      beacon ([0#8, 3#8, 31#8, 1#8] ++ tail) = false ∧ beacon ([0#8, 3#8, 0#8, 1#8] ++ tail) = false ∧
      beacon ([0#8, 3#8, 30#8, 0#8] ++ tail) = false ∧ parseTrigger ([0#8, 1#8] ++ tail) = none ∧
      parseTrigger ([30#8, 0#8] ++ tail) = none := by decide +kernel

end Sys2Proof.Tests
end

section
/-!
The reads of the history ring (R9 to R12): the seqs of a sound ring that holds entries, the two branches of a read,
and where the entries it returns stand.
-/

namespace Sys2Proof.Machine

/-- In a ring that is not empty the held seqs run from the oldest up to next seq (R3). -/
theorem Ring.Sound.oldestSeq_add_held {r : Ring} (h : r.Sound) (h0 : 0 < r.held) :
    r.oldestSeq + r.held = r.nextSeq := by
  have hb := h.heldBelow
  rw [Ring.oldestSeq, if_neg h0.ne']; omega

/-- In a ring that is not empty the newest seq comes just before next seq (R3). -/
theorem Ring.Sound.newestSeq_add_one {r : Ring} (h : r.Sound) (h0 : 0 < r.held) :
    r.newestSeq + 1 = r.nextSeq := by
  have hb := h.heldBelow
  rw [Ring.newestSeq, if_neg h0.ne']; omega

/-- In a ring that is not empty the oldest seq is not above the newest. -/
theorem Ring.Sound.oldestSeq_le_newestSeq {r : Ring} (h : r.Sound) (h0 : 0 < r.held) :
    r.oldestSeq ≤ r.newestSeq := by
  have ho := h.oldestSeq_add_held h0; have hn := h.newestSeq_add_one h0
  omega

/-- The entry found under a seq stands at the position of that seq. -/
theorem Ring.getElem?_positionOf_of_entry {r : Ring} {q : Nat} {e : Entry} (he : r.entry q = some e) :
    r.positions[r.positionOf q]? = some (some e) := by
  rw [Ring.entry, List.getD_eq_getElem?_getD] at he
  cases hp : r.positions[r.positionOf q]? with
  | none => rw [hp] at he; cases he
  | some o => rw [hp] at he; exact congrArg some he

/-- From the oldest seq to the newest each seq has its entry, which stands at position (seq - 1) modulo 512 (R3, R5). -/
theorem Ring.Sound.entry_in_place {r : Ring} (h : r.Sound) (h0 : 0 < r.held) {q : Nat} (h1 : r.oldestSeq ≤ q)
    (h2 : q ≤ r.newestSeq) :
    ∃ e, r.entry q = some e ∧ e.seq = q ∧ r.positions[(e.seq - 1) % ringSize]? = some (some e) := by
  have ho := h.oldestSeq_add_held h0; have hn := h.newestSeq_add_one h0
  have hlow : r.nextSeq ≤ q + r.held := by omega
  have hhigh : q < r.nextSeq := by omega
  obtain ⟨d, hd⟩ := h.entry hlow hhigh
  have hat := Ring.getElem?_positionOf_of_entry hd
  rw [h.positionOf hlow hhigh] at hat
  exact ⟨_, hd, rfl, hat⟩

/-- A read of an empty ring or beyond the newest seq returns no entry (R12). -/
theorem Ring.read_noneYet {r : Ring} {start count : Nat} (h : r.held = 0 ∨ r.newestSeq < start) :
    r.read start count = (.noneYet, []) := if_pos h

/-- A read that starts no later than the newest seq returns the entry under its start, moved up to the oldest seq where
it lies below, and a second one when it is asked for and held (R10, R11). -/
theorem Ring.read_of_le_newestSeq {r : Ring} {start : Nat} (h0 : 0 < r.held) (hs : start ≤ r.newestSeq) (count : Nat) :
    r.read start count =
      (if start < r.oldestSeq then .startMoved else .inPlace,
       (r.entry (max start r.oldestSeq)).toList ++
         if count = 2 ∧ max start r.oldestSeq < r.newestSeq then (r.entry (max start r.oldestSeq + 1)).toList else []) :=
  if_neg (by omega)

/-- Settles O9: by the two branches of a read, and in the second by whether a second entry is asked for and held. -/
theorem readsReturnHeldEntriesInPlace : Obligations.ReadsReturnHeldEntriesInPlace := by
  intro r start count h
  refine ⟨Ring.read_noneYet, ?_⟩
  intro first h0 hs hfirst
  have hle := h.oldestSeq_le_newestSeq h0
  have hlow : r.oldestSeq ≤ first := hfirst ▸ le_max_right ..
  have hhigh : first ≤ r.newestSeq := hfirst ▸ max_le hs hle
  rw [Ring.read_of_le_newestSeq h0 hs, ← hfirst]
  refine ⟨rfl, ?_⟩
  obtain ⟨e, he, hseq, hat⟩ := h.entry_in_place h0 hlow hhigh
  by_cases htwo : count = 2 ∧ first < r.newestSeq
  · obtain ⟨e', he', hseq', hat'⟩ := h.entry_in_place h0 (Nat.le_succ_of_le hlow) htwo.2
    simp only [if_pos htwo, he, he']
    exact ⟨by simp [hseq, hseq'], List.forall_mem_cons.mpr ⟨hat, List.forall_mem_singleton.mpr hat'⟩⟩
  · simp only [if_neg htwo, he]
    exact ⟨by simp [hseq], List.forall_mem_singleton.mpr hat⟩

end Sys2Proof.Machine
end

section
/-!
Capture tags (R22): when two tags are the same capture, and which of two is earlier. Earlier is the lexicographic order
on trigger time, then origin address.
-/

namespace Sys2Proof.Machine

/-- Two tags are the same capture when origins and serials are equal; no trigger time is part of a tag (R22). -/
theorem Tag.eq_iff (a b : Tag) : a = b ↔ a.origin = b.origin ∧ a.serial = b.serial := by
  cases a; cases b
  exact Iff.of_eq (Tag.mk.injEq ..)

/-- Earlier goes by trigger time, and at equal times by origin address (R22). -/
theorem TimedTag.earlier_iff (a b : TimedTag) :
    a.earlier b = true ↔ a.time < b.time ∨ (a.time = b.time ∧ a.tag.origin < b.tag.origin) := by
  simp [TimedTag.earlier]

/-- Earlier is the strict lexicographic order of the pairs (trigger time, origin address). -/
theorem TimedTag.earlier_iff_toLex_lt (a b : TimedTag) :
    a.earlier b = true ↔ toLex (a.time, a.tag.origin) < toLex (b.time, b.tag.origin) := by
  rw [TimedTag.earlier_iff, Prod.Lex.toLex_lt_toLex]

/-- Of two tags with equal times and equal origins the one is not earlier than the other, whatever their serials. -/
theorem TimedTag.earlier_eq_false_of_eq {a b : TimedTag} (htime : a.time = b.time)
    (horigin : a.tag.origin = b.tag.origin) : a.earlier b = false := by
  rw [Bool.eq_false_iff, Ne, TimedTag.earlier_iff_toLex_lt, htime, horigin]
  exact lt_irrefl _

/-- No two tags are each earlier than the other. -/
theorem TimedTag.earlier_asymm {a b : TimedTag} (h : a.earlier b = true) : b.earlier a = false := by
  rw [Bool.eq_false_iff, Ne, TimedTag.earlier_iff_toLex_lt]
  exact lt_asymm ((a.earlier_iff_toLex_lt b).mp h)

/-- A tag earlier than an earlier one is earlier. -/
theorem TimedTag.earlier_trans {a b c : TimedTag} (hab : a.earlier b = true) (hbc : b.earlier c = true) :
    a.earlier c = true := by
  rw [TimedTag.earlier_iff_toLex_lt] at *
  exact lt_trans hab hbc

/-- Settles O15: earlier is a lexicographic order, so irreflexivity, asymmetry and transitivity are that order's. -/
theorem tagsAreOrderedByTimeThenOrigin : Obligations.TagsAreOrderedByTimeThenOrigin :=
  ⟨Tag.eq_iff, TimedTag.earlier_iff,
    fun _ _ htime horigin => ⟨TimedTag.earlier_eq_false_of_eq htime horigin,
      TimedTag.earlier_eq_false_of_eq htime.symm horigin.symm⟩,
    fun _ _ => TimedTag.earlier_asymm, fun _ _ _ => TimedTag.earlier_trans⟩

end Sys2Proof.Machine
end

section
/-!
The excursion evaluation of a channel (R75, R76): the order of a valid setting's thresholds, one equation per row of the
tables, and the two outcomes of a reading that counts towards NORMAL, with and without the opposite excursion.
-/

namespace Sys2Proof.Machine

/-! ## The thresholds of a valid setting (R177) -/

/-- In a valid setting the hysteresis is less than the distance of the thresholds. -/
theorem ChannelSetting.low_add_hysteresis_lt_high {x : ChannelSetting} (h : x.valid = true) :
    x.low + x.hysteresis < x.high := by
  simp only [ChannelSetting.valid, Bool.and_eq_true, decide_eq_true_eq] at h
  obtain ⟨⟨⟨⟨⟨-, -⟩, -⟩, hband⟩, -⟩, -⟩ := h
  omega

/-- In a valid setting L lies below H. -/
theorem ChannelSetting.low_lt_high {x : ChannelSetting} (h : x.valid = true) : x.low < x.high :=
  (Nat.le_add_right ..).trans_lt (x.low_add_hysteresis_lt_high h)

/-- A reading below L lies below H - h (R76). -/
theorem ChannelSetting.lt_high_sub_hysteresis {x : ChannelSetting} (h : x.valid = true) {r : Nat} (hr : r < x.low) :
    r < x.high - x.hysteresis := by
  have hband := x.low_add_hysteresis_lt_high h
  omega

/-- A reading above H lies above L + h (R76). -/
theorem ChannelSetting.low_add_hysteresis_lt {x : ChannelSetting} (h : x.valid = true) {r : Nat} (hr : x.high < r) :
    x.low + x.hysteresis < r :=
  (x.low_add_hysteresis_lt_high h).trans hr

/-! ## A reading that counts towards NORMAL (R76) -/

section
variable (n time : Nat) (ret cross : Option Run) (stay : Option Run → Option Run → Excursion) (opposite : Excursion)
  (kind : Kind)

/-- A reading not beyond the opposite threshold ends the cross run: only the return run can complete. -/
theorem returnOrCross_false :
    returnOrCross n time ret cross false stay opposite kind =
      if n ≤ (extendRun ret time).count then
        (.normal none none, some { kind := .analogNormal, time := (extendRun ret time).firstTime })
      else (stay (some (extendRun ret time)) none, none) := rfl

/-- A reading beyond the opposite threshold extends both runs, and a complete cross run is taken first. -/
theorem returnOrCross_true :
    returnOrCross n time ret cross true stay opposite kind =
      if n ≤ (extendRun cross time).count then (opposite, some { kind, time := (extendRun cross time).firstTime })
      else if n ≤ (extendRun ret time).count then
        (.normal none none, some { kind := .analogNormal, time := (extendRun ret time).firstTime })
      else (stay (some (extendRun ret time)) (some (extendRun cross time)), none) := by
  by_cases hcross : n ≤ (extendRun cross time).count
  · simp [returnOrCross, Option.filter, hcross]
  · simp [returnOrCross, Option.filter, hcross]

end

/-! ## The rows of the tables -/

section
variable {x : ChannelSetting} {r : Nat} (time : Nat)

/-- In NORMAL a reading from L to H ends both runs (R75). -/
theorem Excursion.evaluate_normal_between (hlow : x.low ≤ r) (hhigh : r ≤ x.high) (high low : Option Run) :
    (Excursion.normal high low).evaluate x r time = (.normal none none, none) :=
  (if_neg hhigh.not_gt).trans (if_neg hlow.not_gt)

/-- In NORMAL a reading above H extends the high run, and ends the low run (R75). -/
theorem Excursion.evaluate_normal_above (h : x.high < r) (high low : Option Run) :
    (Excursion.normal high low).evaluate x r time =
      if x.qualifyScans ≤ (extendRun high time).count then
        (.high none none, some { kind := .analogHigh, time := (extendRun high time).firstTime })
      else (.normal (some (extendRun high time)) none, none) :=
  if_pos h

/-- In NORMAL a reading below L, and so not above H, extends the low run, and ends the high run (R75). -/
theorem Excursion.evaluate_normal_below (h : r < x.low) (horder : x.low < x.high) (high low : Option Run) :
    (Excursion.normal high low).evaluate x r time =
      if x.qualifyScans ≤ (extendRun low time).count then
        (.low none none, some { kind := .analogLow, time := (extendRun low time).firstTime })
      else (.normal none (some (extendRun low time)), none) :=
  (if_neg (h.trans horder).not_gt).trans (if_pos h)

/-- In HIGH a reading of H - h or more holds the state and ends both runs (R76). -/
theorem Excursion.evaluate_high_hold (h : x.high - x.hysteresis ≤ r) (ret cross : Option Run) :
    (Excursion.high ret cross).evaluate x r time = (.high none none, none) :=
  if_neg h.not_gt

/-- In HIGH a reading below H - h counts towards NORMAL, and towards LOW where it lies below L (R76). -/
theorem Excursion.evaluate_high_return (h : r < x.high - x.hysteresis) (ret cross : Option Run) :
    (Excursion.high ret cross).evaluate x r time =
      returnOrCross x.qualifyScans time ret cross (decide (r < x.low)) .high (.low none none) .analogLow :=
  if_pos h

/-- In LOW a reading of L + h or less holds the state and ends both runs (R76). -/
theorem Excursion.evaluate_low_hold (h : r ≤ x.low + x.hysteresis) (ret cross : Option Run) :
    (Excursion.low ret cross).evaluate x r time = (.low none none, none) :=
  if_neg h.not_gt

/-- In LOW a reading above L + h counts towards NORMAL, and towards HIGH where it lies above H (R76). -/
theorem Excursion.evaluate_low_return (h : x.low + x.hysteresis < r) (ret cross : Option Run) :
    (Excursion.low ret cross).evaluate x r time =
      returnOrCross x.qualifyScans time ret cross (decide (x.high < r)) .low (.high none none) .analogHigh :=
  if_pos h

end

/-- Settles O31: row by row of the tables of R75 and R76. That a reading below L is not above H, and that one beyond the
opposite threshold is also beyond the hysteresis, is what a valid setting gives. -/
theorem excursionFollowsItsRuns : Obligations.ExcursionFollowsItsRuns := by
  intro x r time hvalid
  refine ⟨fun high low => ⟨?between, ?above, ?below⟩, ?_⟩
  case between => exact fun hlow hhigh => Excursion.evaluate_normal_between time hlow hhigh high low
  case above =>
    rintro _ h rfl
    exact Excursion.evaluate_normal_above time h high low
  case below =>
    rintro _ h rfl
    exact Excursion.evaluate_normal_below time h (x.low_lt_high hvalid) high low
  rintro ret cross _ _ rfl rfl
  refine ⟨?highHolds, ?highReturns, ?highCrosses, ?lowHolds, ?lowReturns, ?lowCrosses⟩
  case highHolds => exact fun h => Excursion.evaluate_high_hold time h ret cross
  case highReturns =>
    intro hlow h
    rw [Excursion.evaluate_high_return time h, decide_eq_false hlow.not_gt, returnOrCross_false]
  case highCrosses =>
    intro h
    rw [Excursion.evaluate_high_return time (x.lt_high_sub_hysteresis hvalid h), decide_eq_true h, returnOrCross_true]
  case lowHolds => exact fun h => Excursion.evaluate_low_hold time h ret cross
  case lowReturns =>
    intro h hhigh
    rw [Excursion.evaluate_low_return time h, decide_eq_false hhigh.not_gt, returnOrCross_false]
  case lowCrosses =>
    intro h
    rw [Excursion.evaluate_low_return time (x.low_add_hysteresis_lt hvalid h), decide_eq_true h, returnOrCross_true]

end Sys2Proof.Machine
end

section
/-!
What a command can do: every command is a course of moves, each a change of one block or one shared operation with what
holds where it is made, and at most one reset (its last change) or end of a held reset (its first). The invariants go by
the moves, so that no invariant walks through the commands again.
-/

namespace Sys2Proof.Machine

/-- Nothing is staged and nothing is being sent. -/
def LineController.Idle (lc : LineController) : Prop :=
  (∀ since out, lc.line ≠ .staged since out) ∧ ∀ since out w, lc.line ≠ .transmitting since out w

/-- What the Line Controller alone can do, but for becoming stuck and recovering (R123 to R143). -/
inductive LineMove (s : State) : LineController → Prop where
  | times (active quiet : Option Nat) : LineMove s { s.lc with activeSince := active, quietSince := quiet }
  | begins : LineMove s s.activityBegins.lc
  | breaks {stamp : Option Nat} (h : s.lc.line = .receiving stamp) : LineMove s s.breakReception.lc
  | accepts {stamp : Option Nat} (h : s.lc.line = .receiving stamp) : LineMove s s.acceptReception.lc
  | stamps {stamp : Option Nat} (time : Nat) (h : s.lc.line = .receiving stamp) :
      LineMove s { s.lc with line := .receiving (some time) }
  | sends {since : Nat} {out : Outgoing} (now : Nat) (h : s.lc.line = .staged since out) :
      LineMove s { s.lc with line := .transmitting now out none }
  | inserts {since : Nat} {out : Outgoing} {w : Option Nat} (time : Nat) (h : s.lc.line = .transmitting since out w) :
      LineMove s { s.lc with line := .transmitting since (out.stamp time) w }
  | endsBackoff :
      LineMove s { s.lc with backoffEnd := none, line := if s.lc.line = .backoff then .quiet else s.lc.line }
  | completes {since : Nat} {out : Outgoing} {w : Option Nat} (h : s.lc.line = .transmitting since out w) :
      LineMove s { s.lc with line := .quiet }
  | collides {since : Nat} {out : Outgoing} {w : Option Nat} (k : Nat) (h : s.lc.line = .transmitting since out w) :
      LineMove s (s.collide k).lc
  | counts (src : Source) {k : Nat} (h : k < collisionLimit) :
      LineMove s { s.lc with attempts := s.lc.attempts.put src k }
  | abandons (src : Source) :
      LineMove s { s.lc with abandoned := satAdd top16 s.lc.abandoned 1, attempts := s.lc.attempts.put src 0 }

/-- One move of a command: a shared operation, or a change of one block's state. -/
inductive Move (s : State) : State → Prop where
  | emit (e : LocalEvent) : Move s (s.emit e)
  | writeHeard (d : Draft) : Move s (s.writeHeard d)
  | write (d : Draft) : Move s (s.write d).1
  | originate (cause : Cause) (time : Nat) (hop : s.sc.op = .running) (harmed : s.cc.record.st = .armed) :
      Move s (s.originate cause time)
  | enterPost (z : TimedTag) (cause : Cause) (hop : s.sc.op = .running) (harmed : s.cc.record.st = .armed) :
      Move s (s.enterPost z cause)
  | compare (z : TimedTag) : Move s (s.compare z)
  | release (reason : ReleaseReason) : Move s (s.release reason)
  | freeze (reason : FreezeReason) : Move s (s.freeze reason)
  | mismatches : Move s { s with hr := { s.hr with check := .mismatched } }
  | inputs (iq : List InputRecord) (hlength : iq.length = s.iq.length) : Move s { s with iq }
  | scanner (an : Scanner) (hchannels : an.channels.length = s.an.channels.length)
      (hdither : an.dither = s.an.dither ∨ an.dither = ditherStep s.an.dither)
      (hcheck : an.checkPos = s.an.checkPos ∨ an.checkPos = some (nextPosition checkCycle s.an.checkPos))
      (hnext : an.nextScan.isSome = s.an.nextScan.isSome) (href : an.reference = s.an.reference) : Move s { s with an }
  | checkReference (time : Nat) (c : Conversions) : Move s (s.checkReference time c).1
  | peers (ps : List PeerEntry) (hlength : ps.length = s.pm.peers.length) :
      Move s { s with pm := { s.pm with peers := ps } }
  | clash (since : Option Nat) :
      Move s (State.setCondition .addressClash since.isSome { s with pm := { s.pm with clashSince := since } })
  | timeUnit (tu : TimeUnit)
      (hcount : s.tu.timeCount ≤ timeTop → s.tu.timeCount ≤ tu.timeCount ∧ tu.timeCount ≤ timeTop)
      (hschedule : tu.schedule.isSome = s.tu.schedule.isSome)
      (hbeacon : s.tu.beaconPending = true → tu.beaconPending = true) : Move s { s with tu }
  | supply (x : Supply) :
      Move s (State.setCondition .supplyWarning (decide (x ≠ .normal)) { s with sc := { s.sc with supply := x } })
  | restoreTimer {timer : Option Nat} (timer' : Option Nat) (h : s.sc.supply = .warning timer) :
      Move s { s with sc := { s.sc with supply := .warning timer' } }
  | configure (payload : List Byte) (hop : s.sc.op = .setup) :
      Move s { s with sc := s.sc.configure (parseSection payload) }
  | enterRunning (levels : BitVec 12) (hop : s.sc.op = .setup) : Move s (s.enterRunning levels)
  | line {lc : LineController} (h : LineMove s lc) : Move s { s with lc }
  | sticks : Move s (State.setCondition .lineStuck true { s with lc := { s.lc with line := .stuck } })
  | recovers : Move s (State.setCondition .lineStuck false
      { s with lc := { s.lc with line := s.restingLine, activeSince := none } })
  | stage (src : Source) (hitem : s.holdsItem src = true) (hline : s.lc.line = .quiet) (hback : s.lc.backoffEnd = none) :
      Move s (s.stage src)
  | dropTrigger (h : s.lc.Idle) : Move s { s with cc := { s.cc with pendingTrigger := none } }
  | dropReply (h : s.lc.Idle) : Move s { s with rh := { s.rh with slot := none } }
  | dropBeacon (h : s.lc.Idle) : Move s { s with tu := { s.tu with beaconPending := false } }
  | endBatch (drops : Nat) (h : s.lc.Idle) : Move s (s.endBatch drops)
  | endReply : Move s s.endReply
  | placeReply (kind : Byte) (payload : List Byte) : Move s (s.placeReply kind payload)
  | oweRestart : Move s { s with rh := { s.rh with restartOwed := true } }

/-- Moves one after another. -/
abbrev Moves : State → State → Prop := Relation.ReflTransGen Move

/-- The end of a held reset, before STARTING (R165). -/
def State.unheld (s : State) : State := { s with sc := { s.sc with resetHeld := false, belowPowerOn := false } }

/-- The steps of R167, as far as `ending` says (R17). -/
def State.runStarting (straps : Straps) (ending : StartingEnd) (levels : BitVec 12) (s : State) : State :=
  match ending with
  | .struckBeforeRestore => s.readStraps straps
  | .struckAfterRestore => (s.readStraps straps).restore
  | .completes => (s.readStraps straps).restore.leaveStarting levels

/-- The course of a command: moves; the end of a held reset, with what the supply does until the steps of R167; or a reset,
after moves or within a course that it cuts short. -/
inductive Course : State → State → Prop where
  | moves {s t : State} (run : Moves s t) : Course s t
  | starting {s w : State} (straps : Straps) (ending : StartingEnd) (levels : BitVec 12) (held : s.sc.resetHeld = true)
      (watched : Moves s.unheld w) (hop : s.sc.op = .starting → w.sc.op = .starting) :
      Course s (w.runStarting straps ending levels)
  | powerOn (s : State) : Course s s.beginPowerOn
  | resetBetween {s u : State} (cause : ResetCause) (inside : Bool) (run : Moves s u) :
      Course s (u.beginRetaining cause inside)
  | resetWithin {s u v : State} (cause : ResetCause) (inside : Bool) (passed : Nat) (run : Moves s u)
      (found : Course { u with cut := some passed } v) : Course s (v.beginRetaining cause inside)

theorem Move.moves {s t : State} (h : Move s t) : Moves s t := .single h

theorem LineMove.moves {s : State} {lc : LineController} (h : LineMove s lc) : Moves s { s with lc } :=
  (Move.line h).moves

/-- A fold is a course of moves where each of its steps is. -/
theorem Moves.foldl {α : Type} {f : State → α → State} (h : ∀ s a, Moves s (f s a)) (l : List α) (s : State) :
    Moves s (l.foldl f s) := by
  induction l generalizing s with
  | nil => exact .refl
  | cons a l ih => exact (h s a).trans (ih (f s a))

/-! ## Time -/

theorem State.advance_moves (n : Nat) (s : State) : Moves s (s.advance n) := by
  unfold State.advance
  split
  · exact .refl
  · refine (Move.timeUnit (s := s) _ (fun h => ?_) (by rfl) (by exact id)).moves
    exact ⟨Nat.le_min.mpr ⟨Nat.le_add_right _ _, h⟩, Nat.min_le_right _ _⟩

theorem State.advanceTo_moves (m : Nat) (s : State) : Moves s (s.advanceTo m) := State.advance_moves _ s

/-- Time moves the two timers alone (R102, R103). -/
@[simp] theorem State.advance_schedule (n : Nat) (s : State) : (s.advance n).tu.schedule = s.tu.schedule := by
  unfold State.advance
  split <;> rfl

@[simp] theorem State.advanceTo_schedule (m : Nat) (s : State) : (s.advanceTo m).tu.schedule = s.tu.schedule :=
  State.advance_schedule _ s

/-! ## The capture record -/

theorem State.requestTrigger_moves (cause : Cause) (time : Option Nat) {s : State} (hop : s.sc.op = .running) :
    Moves s (s.requestTrigger cause time) := by
  unfold State.requestTrigger
  split
  case h_2 harmed => exact (Move.originate _ _ hop harmed).moves
  all_goals exact .refl

theorem State.takeTrigger_moves (z : TimedTag) (s : State) : Moves s (s.takeTrigger z) := by
  unfold State.takeTrigger
  split
  case isFalse => exact .refl
  case isTrue hop =>
    split
    case h_1 => exact .refl
    case h_2 harmed => exact (Move.enterPost _ _ hop harmed).moves
    all_goals exact (Move.compare z).moves

theorem State.takeGossip_moves (code : CaptureCode) (tag : Option TimedTag) (s : State) :
    Moves s (s.takeGossip code tag) := by
  unfold State.takeGossip
  split
  case isFalse => exact .refl
  case isTrue hop =>
    cases tag with
    | none => exact .refl
    | some z =>
      dsimp only
      split
      case h_1 => exact .refl
      case h_2 harmed =>
        cases code with
        | off | armed | frozen => exact .refl
        | post => exact (Move.enterPost _ _ hop harmed).moves
      all_goals exact (Move.compare z).moves

/-! ## Supply (R181 to R183) -/

theorem State.fallBelowWarning_moves (s : State) : Moves s s.fallBelowWarning := by
  unfold State.fallBelowWarning
  split
  · exact .refl
  · exact (Move.supply (.warning none)).moves.tail (.emit _)

theorem State.riseAboveHysteresis_moves (s : State) : Moves s s.riseAboveHysteresis := by
  unfold State.riseAboveHysteresis
  split
  case h_1 h => exact (Move.restoreTimer _ h).moves
  all_goals exact .refl

theorem State.dipBelowHysteresis_moves (s : State) : Moves s s.dipBelowHysteresis := by
  unfold State.dipBelowHysteresis
  split
  case h_1 h => exact (Move.restoreTimer _ h).moves
  case h_2 => exact .refl

theorem State.supplyRestored_moves (s : State) : Moves s s.supplyRestored := by
  unfold State.supplyRestored
  split
  · exact ((State.advanceTo_moves _ s).tail (.supply .normal)).tail (.emit _)
  all_goals exact .refl

theorem State.supplyMoment_moves (s : State) (m : SupplyMoment) : Moves s (s.supplyMoment m) := by
  cases m with
  | fall dt => exact (State.advance_moves dt s).trans (State.fallBelowWarning_moves _)
  | rise dt => exact (State.advance_moves dt s).trans (State.riseAboveHysteresis_moves _)
  | dip dt => exact (State.advance_moves dt s).trans (State.dipBelowHysteresis_moves _)
  | restored => exact State.supplyRestored_moves s


/-- In STARTING the supply monitor leaves the operating state. -/
theorem State.emit_op_starting {s : State} (h : s.sc.op = .starting) (e : LocalEvent) :
    (s.emit e).sc.op = .starting := by
  rw [State.emit_notRunning e (by simp [h]), h]

theorem State.fallBelowWarning_op {s : State} (h : s.sc.op = .starting) : s.fallBelowWarning.sc.op = .starting := by
  unfold State.fallBelowWarning
  split
  · exact h
  · refine State.emit_op_starting ?_ _
    exact h

theorem State.supplyMoment_op {s : State} (h : s.sc.op = .starting) (m : SupplyMoment) :
    (s.supplyMoment m).sc.op = .starting := by
  have htime (n : Nat) : (s.advance n).sc.op = .starting := by simpa using h
  cases m with
  | fall dt => exact State.fallBelowWarning_op (htime dt)
  | rise dt =>
    simp only [State.supplyMoment, State.riseAboveHysteresis]
    split <;> exact htime dt
  | dip dt =>
    simp only [State.supplyMoment, State.dipBelowHysteresis]
    split <;> exact htime dt
  | restored =>
    simp only [State.supplyMoment, State.supplyRestored]
    split
    · refine State.emit_op_starting ?_ _
      exact htime _
    all_goals exact h

/-! ## Event inputs (chapter 3) -/

theorem State.setInput_moves (n : Nat) (r : InputRecord) (s : State) : Moves s (s.setInput n r) :=
  (Move.inputs _ List.length_set).moves

theorem State.changeEvent_moves (n : Nat) (level : Bool) (edgeTime : Nat) (s : State) :
    Moves s (s.changeEvent n level edgeTime) := by
  unfold State.changeEvent
  dsimp only
  split
  · exact (Move.emit _).moves
  · exact .refl

theorem State.countChatter_moves (n : Nat) (level : Bool) (window : Option ChatterWindow) (rep : Option RepeatTimer)
    (s : State) : Moves s (s.countChatter n level window rep) := by
  unfold State.countChatter
  dsimp only
  split
  · exact .refl
  · cases window with
    | none => exact State.setInput_moves _ _ s
    | some w =>
      dsimp only
      split
      · exact (Move.emit _).moves.trans (State.setInput_moves _ _ _)
      · exact State.setInput_moves _ _ s

theorem State.qualifiedChange_moves (n : Nat) (level : Bool) (edgeTime : Nat) (s : State) :
    Moves s (s.qualifiedChange n level edgeTime) := by
  unfold State.qualifiedChange
  split
  · exact State.setInput_moves _ _ s
  · exact ((State.setInput_moves _ _ s).trans (State.changeEvent_moves _ _ _ _)).trans
      (State.countChatter_moves _ _ _ _ _)

theorem State.edge_moves (n : Nat) (s : State) : Moves s (s.edge n) := by
  unfold State.edge
  dsimp only
  split
  · exact .refl
  · exact State.setInput_moves _ _ s
  · split
    · exact State.qualifiedChange_moves _ _ _ s
    · exact State.setInput_moves _ _ s

/-! ## Analog scan (chapter 4) -/

/-- A change of the scanner that leaves the channel count, the generator, the check position, the reference state and
whether scans run. -/
theorem State.scanner_moves {s : State} (an : Scanner) (hchannels : an.channels.length = s.an.channels.length)
    (hdither : an.dither = s.an.dither) (hcheck : an.checkPos = s.an.checkPos)
    (hnext : an.nextScan.isSome = s.an.nextScan.isSome) (href : an.reference = s.an.reference) :
    Moves s { s with an } :=
  (Move.scanner an hchannels (.inl hdither) (.inl hcheck) hnext href).moves

theorem State.startScan_moves (s : State) : Moves s s.startScan := by
  have counted (an : Scanner) (hchannels : an.channels.length = s.an.channels.length)
      (hdither : an.dither = s.an.dither ∨ an.dither = ditherStep s.an.dither)
      (hcheck : an.checkPos = some (nextPosition checkCycle s.an.checkPos))
      (hnext : an.nextScan.isSome = s.an.nextScan.isSome) (href : an.reference = s.an.reference) :
      Moves s { s with an } := (Move.scanner an hchannels hdither (.inr hcheck) hnext href).moves
  unfold State.startScan State.countScan
  dsimp only
  split
  · split
    · exact counted _ rfl (.inl rfl) rfl rfl rfl
    · split
      · split
        · exact counted _ rfl (.inr rfl) rfl rfl rfl
        · exact counted _ rfl (.inl rfl) rfl rfl rfl
      · exact counted _ rfl (.inl rfl) rfl rfl rfl
  · exact State.scanner_moves _ rfl rfl rfl rfl rfl

theorem State.evaluateChannel_moves (time reading ch : Nat) (s : State) :
    Moves s (s.evaluateChannel time reading ch) := by
  unfold State.evaluateChannel
  dsimp only
  split
  · have hset (x : Excursion) : Moves s { s with an := { s.an with channels := s.an.channels.set ch x } } :=
      State.scanner_moves _ List.length_set rfl rfl rfl rfl
    split
    · exact hset _
    · exact (hset _).tail (.emit _)
  · exact .refl

theorem State.snapshotChannel_moves (time reading ch : Nat) (s : State) :
    Moves s (s.snapshotChannel time reading ch) := by
  unfold State.snapshotChannel
  dsimp only
  split
  · exact (Move.emit _).moves
  · exact .refl

theorem State.evaluateScan_moves (time : Nat) (c : Conversions) (s : State) : Moves s (s.evaluateScan time c) := by
  unfold State.evaluateScan
  dsimp only
  have hcheck : Moves s (if s.an.checkPos = some checkCycle then s.checkReference time c
      else (s, decide (s.an.reference ≠ .healthy))).1 := by
    split
    · exact (Move.checkReference time c).moves
    · exact .refl
  have heval (u : State) : Moves u (u.evaluateChannels time c) :=
    Moves.foldl (fun v ch => State.evaluateChannel_moves _ _ ch v) _ u
  have hsnap (u : State) : Moves u (u.snapshotChannels time c) :=
    Moves.foldl (fun v ch => State.snapshotChannel_moves _ _ ch v) _ u
  generalize (if s.an.checkPos = some checkCycle then s.checkReference time c
      else (s, decide (s.an.reference ≠ .healthy))) = checked at hcheck ⊢
  split
  · exact hcheck
  · split
    · exact (hcheck.trans (heval _)).trans (hsnap _)
    · exact hcheck.trans (heval _)

/-! ## Time Unit and Peer Monitor (chapter 6) -/

theorem State.setPeer_moves (a : Nat) (p : PeerEntry) (s : State) : Moves s (s.setPeer a p) :=
  (Move.peers _ List.length_set).moves

/-- The sync state and its timer (R110). -/
theorem State.sync_moves (sync : SyncState) (since : Option Nat) (s : State) :
    Moves s { s with tu := { s.tu with sync, syncSince := since } } :=
  (Move.timeUnit { s.tu with sync, syncSince := since } (fun h => ⟨le_rfl, h⟩) rfl id).moves

/-- The beacon schedule goes on (R104). -/
theorem State.schedule_moves {s : State} {plan : Schedule} (h : s.tu.schedule = some plan) (plan' : Schedule) :
    Moves s { s with tu := { s.tu with schedule := some plan' } } :=
  (Move.timeUnit { s.tu with schedule := some plan' } (fun h => ⟨le_rfl, h⟩) (by simp [h]) id).moves

/-- A beacon becomes pending (R104). -/
theorem State.beaconPending_moves (s : State) : Moves s { s with tu := { s.tu with beaconPending := true } } :=
  (Move.timeUnit { s.tu with beaconPending := true } (fun h => ⟨le_rfl, h⟩) rfl fun _ => rfl).moves

theorem State.peerHeard_moves (src : Nat) (s : State) : Moves s (s.peerHeard src) := by
  unfold State.peerHeard
  split
  · exact .refl
  · dsimp only
    split
    · exact State.setPeer_moves _ _ s
    · exact (State.setPeer_moves _ _ s).tail (.emit _)

theorem State.noteBeacon_moves (src : Nat) (b : BeaconFields) (s : State) : Moves s (s.noteBeacon src b) := by
  unfold State.noteBeacon
  split
  · exact .refl
  · exact State.setPeer_moves _ _ s

/-- Setting a member that is present already changes nothing. -/
theorem State.setCondition_of_has {s : State} {m : Condition} (h : s.sc.conditions.has m = true) :
    s.setCondition m true = s := by
  have hput : s.sc.conditions.put m true = s.sc.conditions := by
    cases m <;> simp [Conditions.put, ← show _ = true from h, Conditions.has]
  simp [State.setCondition, hput]

theorem State.clashFrame_moves (s : State) : Moves s s.clashFrame := by
  unfold State.clashFrame
  dsimp only
  have hclash : Moves s _ := (Move.clash (some s.tu.elapsed)).moves
  split
  case isTrue h =>
    have hsame := State.setCondition_of_has (m := .addressClash)
      (s := { s with pm := { s.pm with clashSince := some s.tu.elapsed } }) h
    exact hsame ▸ hclash
  case isFalse => exact hclash.tail (.emit _)

theorem State.stepTime_moves (d : Int) (s : State) : Moves s (s.stepTime d) := by
  have hcount : Moves s { s with tu := { s.tu with timeCount := s.steppedCount d } } := by
    refine (Move.timeUnit (s := s) _ (fun h => ?_) (by rfl) (by exact id)).moves
    unfold State.steppedCount
    dsimp only
    split
    · exact ⟨Nat.le_min.mpr ⟨Nat.le_add_right _ _, h⟩, Nat.min_le_right _ _⟩
    · exact ⟨le_rfl, h⟩
  unfold State.stepTime
  dsimp only
  split
  · exact hcount.tail (.emit _)
  · exact hcount

theorem State.gainSync_moves (s : State) : Moves s s.gainSync := by
  have hsync : Moves s { s with tu := { s.tu with sync := .synced, syncSince := some s.tu.elapsed } } :=
    State.sync_moves _ _ s
  unfold State.gainSync
  dsimp only
  split
  · exact hsync
  · exact hsync.tail (.emit _)

theorem State.takeBeaconTime_moves (sender stamp : Nat) (s : State) : Moves s (s.takeBeaconTime sender stamp) := by
  unfold State.takeBeaconTime
  dsimp only
  split
  · exact (State.stepTime_moves _ s).trans (State.gainSync_moves _)
  · exact State.stepTime_moves _ s

/-! ## Frames from the line (R97 to R118, R139) -/

theorem State.takeHeard_moves (src : Nat) (e : EventFields) (s : State) : Moves s (s.takeHeard src e) := by
  unfold State.takeHeard
  split
  · dsimp only
    refine .trans ?_ (Moves.foldl (fun v d => (Move.writeHeard d).moves) _ _)
    split
    · exact (Move.writeHeard _).moves
    · exact .refl
  · exact .refl

theorem State.takeEvent_moves (src : Nat) (e : EventFields) (s : State) : Moves s (s.takeEvent src e) := by
  unfold State.takeEvent
  split
  · exact .refl
  · split
    · exact .refl
    · exact (State.setPeer_moves _ _ s).trans (State.takeHeard_moves _ _ _)

theorem State.takeBeacon_moves (src stamp : Nat) (payload : List Byte) (s : State) :
    Moves s (s.takeBeacon src stamp payload) := by
  unfold State.takeBeacon
  split
  · exact .refl
  · exact ((State.noteBeacon_moves _ _ s).trans (State.takeBeaconTime_moves _ _ _)).trans
      (State.takeGossip_moves _ _ _)

theorem State.takeStationFrame_moves (f : Frame) (stamp : Nat) (s : State) : Moves s (s.takeStationFrame f stamp) := by
  unfold State.takeStationFrame
  split
  · exact State.takeBeacon_moves _ _ _ s
  · split
    · split
      · exact .refl
      · exact State.takeTrigger_moves _ s
    · split
      · split
        · exact .refl
        · exact State.takeEvent_moves _ _ s
      · exact .refl

theorem State.dispatch_moves (f : Frame) (stamp : Nat) (s : State) : Moves s (s.dispatch f stamp) := by
  unfold State.dispatch
  split
  · exact State.clashFrame_moves s
  · split
    · exact .refl
    · dsimp only
      split
      · exact (State.peerHeard_moves _ s).trans (State.takeStationFrame_moves _ _ _)
      · exact State.peerHeard_moves _ s

/-- The end of a reception, and what the blocks then do (R138). -/
theorem State.receive_moves (f : Frame) {take : Nat → State → State} (htake : ∀ n s, Moves s (take n s)) (s : State) :
    Moves s (s.receive f take) := by
  unfold State.receive
  split
  case h_1 h =>
    split
    · exact (LineMove.breaks h).moves
    · exact (LineMove.accepts h).moves.trans (htake _ _)
  case h_2 h => exact (LineMove.breaks h).moves
  all_goals exact .refl

/-! ## Service requests (chapter 8) -/

theorem State.placeResult_moves (request : Byte) (code : ResultCode) (s : State) :
    Moves s (s.placeResult request code) :=
  (Move.placeReply _ _).moves

theorem State.answer_moves (toAll : Bool) (request : Byte) (code : ResultCode) (s : State) :
    Moves s (s.answer toAll request code) := by
  unfold State.answer
  split
  · exact Move.endReply.moves
  · exact State.placeResult_moves _ _ s

theorem State.takeQuery_moves (page : Byte) (s : State) : Moves s (s.takeQuery page) := by
  unfold State.takeQuery
  repeat' split
  all_goals exact (Move.placeReply _ _).moves

theorem State.takeRelease_moves (toAll : Bool) (origin serial : Nat) (s : State) :
    Moves s (s.takeRelease toAll origin serial) := by
  unfold State.takeRelease
  dsimp only
  split
  · exact (Move.release _).moves.trans (State.answer_moves _ _ _ _)
  · exact State.answer_moves _ _ _ s

theorem State.takeForce_moves (s : State) : Moves s s.takeForce := by
  unfold State.takeForce
  split
  case isTrue hop =>
    split
    case h_2 => exact (State.requestTrigger_moves _ _ hop).trans (State.placeResult_moves _ _ _)
    all_goals exact State.placeResult_moves _ _ s
  case isFalse => exact State.placeResult_moves _ _ s

theorem State.takeConfig_moves (toAll : Bool) (payload : List Byte) (s : State) :
    Moves s (s.takeConfig toAll payload) := by
  unfold State.takeConfig
  split
  case isTrue hop => exact (Move.configure payload hop).moves.trans (State.answer_moves _ _ _ _)
  case isFalse =>
    split
    · exact .refl
    · exact State.placeResult_moves _ _ s

theorem State.takeSetupEnd_moves (toAll : Bool) (levels : BitVec 12) (s : State) :
    Moves s (s.takeSetupEnd toAll levels) := by
  unfold State.takeSetupEnd
  split
  case isTrue hop => exact (Move.enterRunning levels hop).moves.trans (State.answer_moves _ _ _ _)
  case isFalse =>
    split
    · exact .refl
    · exact State.placeResult_moves _ _ s

theorem State.takeRestart_moves (s : State) : Moves s s.takeRestart :=
  (State.placeResult_moves _ _ s).tail .oweRestart

theorem State.takeAddressed_moves (dst : Byte) {take : State → State} (htake : ∀ s, Moves s (take s)) (s : State) :
    Moves s (s.takeAddressed dst take) := by
  unfold State.takeAddressed
  split
  · exact htake s
  · exact .refl

theorem State.takeEither_moves (dst : Byte) {take : Bool → State → State} (htake : ∀ b s, Moves s (take b s))
    (s : State) : Moves s (s.takeEither dst take) := by
  unfold State.takeEither
  split
  · exact .refl
  · split
    · exact htake true s
    · split
      · exact htake false s
      · exact .refl

/-! ## Line access (chapter 7) -/

/-- The eligible source that the arbiter chooses holds an item (R128). -/
theorem State.chosenSource_holdsItem {s : State} {src : Source} (h : s.chosenSource = some src) :
    s.holdsItem src = true := by
  have := List.find?_some h
  simp only [Bool.and_eq_true] at this
  exact this.2

theorem State.lineQuiet_moves (s : State) : Moves s s.lineQuiet := (LineMove.times none _).moves

theorem State.activityBegins_moves (s : State) : Moves s s.activityBegins := LineMove.begins.moves

theorem State.breakReception_moves {s : State} {stamp : Option Nat} (h : s.lc.line = .receiving stamp) :
    Moves s s.breakReception := (LineMove.breaks h).moves

theorem State.becomeStuck_moves (s : State) : Moves s s.becomeStuck := by
  have hstuck (u : State) : Moves u _ := (Move.sticks (s := u)).moves.tail (.emit
    { time := u.tu.timeCount, kind := .lineStuck })
  unfold State.becomeStuck
  dsimp only
  split
  case h_1 h => exact (State.breakReception_moves h).trans (hstuck _)
  all_goals exact hstuck s

theorem State.recoverLine_moves (s : State) : Moves s s.recoverLine :=
  Move.recovers.moves.tail (.emit _)

/-! ## The end of a transmission (R131 to R136) -/

theorem State.collide_line (k : Nat) (s : State) : (s.collide k).lc.line = .backoff := rfl

theorem LineController.idle_of_line {lc : LineController} (h : lc.line = .backoff ∨ lc.line = .quiet) : lc.Idle := by
  constructor <;> rcases h with h | h <;> simp [h]

/-! ## Each command is a course of moves -/

/-- A command answers a next state that its course leads to. -/
def Leads (s : State) (r : Result) : Prop := ∃ t, r = .next t ∧ Course s t

theorem Leads.of_moves {s t : State} (h : Moves s t) : Leads s (.next t) := ⟨t, rfl, .moves h⟩

theorem Leads.refl (s : State) : Leads s (.next s) := .of_moves .refl

/-- The step a reset strikes in does what its command does. -/
theorem Leads.stateOr {s : State} {r : Result} (h : Leads s r) : Course s (r.stateOr s) := by
  obtain ⟨t, rfl, hcourse⟩ := h
  exact hcourse

theorem execResetEnd_leads (straps : Straps) (supply : SupplyCourse) (starting : Nat) (ending : StartingEnd)
    (levels : BitVec 12) (s : State) : Leads s (execResetEnd straps supply starting ending levels s) := by
  unfold execResetEnd
  split
  case isFalse => exact .refl s
  case isTrue held =>
    let s2 := if supply.below then s.unheld.fallBelowWarning else s.unheld
    have h2 : Moves s.unheld s2 ∧ (s.sc.op = .starting → s2.sc.op = .starting) := by
      unfold s2
      split
      · exact ⟨State.fallBelowWarning_moves _, fun h => State.fallBelowWarning_op (s := s.unheld) h⟩
      · exact ⟨.refl, id⟩
    have h3 := List.foldlRecOn supply.moments State.supplyMoment
      (motive := fun u => Moves s.unheld u ∧ (s.sc.op = .starting → u.sc.op = .starting)) h2
      fun u hu m _ => ⟨hu.1.trans (State.supplyMoment_moves u m), fun h => State.supplyMoment_op (hu.2 h) m⟩
    obtain ⟨hmoves, hop⟩ := h3
    have hcourse := Course.starting straps ending levels held (hmoves.trans (State.advance_moves starting _))
      (by simpa using hop)
    refine ⟨_, rfl, ?_⟩
    cases ending <;> exact hcourse

theorem execSetupWindowExpiry_leads (levels : BitVec 12) (s : State) : Leads s (execSetupWindowExpiry levels s) := by
  unfold execSetupWindowExpiry
  split
  case h_1 hop _ =>
    exact .of_moves ((State.advanceTo_moves _ s).tail (.enterRunning levels (by simpa using hop)))
  case h_2 => exact .refl s

theorem execInputEdge_leads (dt : Nat) (n : Fin 12) (s : State) : Leads s (execInputEdge dt n s) := by
  refine .of_moves ?_
  split
  · exact (State.advance_moves dt s).trans (State.edge_moves _ _)
  · exact State.advance_moves dt s

theorem execQualifyTimeExpiry_leads (n : Fin 12) (s : State) : Leads s (execQualifyTimeExpiry n s) := by
  unfold execQualifyTimeExpiry
  split
  · exact .of_moves ((State.advanceTo_moves _ s).trans (State.qualifiedChange_moves _ _ _ _))
  · exact .refl s

theorem execRepeatTimerExpiry_leads (n : Fin 12) (s : State) : Leads s (execRepeatTimerExpiry n s) := by
  unfold execRepeatTimerExpiry
  split
  · exact .of_moves (((State.advanceTo_moves _ s).trans (State.setInput_moves _ _ _)).tail (.emit _))
  · exact .refl s

theorem execChatterWindowExpiry_leads (n : Fin 12) (s : State) : Leads s (execChatterWindowExpiry n s) := by
  unfold execChatterWindowExpiry
  split
  · exact .of_moves ((State.advanceTo_moves _ s).trans (State.setInput_moves _ _ _))
  · exact .refl s

theorem execRestTimerExpiry_leads (n : Fin 12) (s : State) : Leads s (execRestTimerExpiry n s) := by
  unfold execRestTimerExpiry
  split
  · exact .of_moves (((State.advanceTo_moves _ s).tail (.emit _)).trans (State.setInput_moves _ _ _))
  · exact .refl s

theorem execScanStart_leads (s : State) : Leads s (execScanStart s) := by
  unfold execScanStart
  split
  case h_1 due _ hnext _ =>
    let s' := s.advanceTo due
    have hdue : Moves s' { s' with an := { s'.an with nextScan := some (due + scanInterval) } } :=
      State.scanner_moves { s'.an with nextScan := some (due + scanInterval) } rfl rfl rfl (by simp [s', hnext]) rfl
    exact .of_moves (((State.advanceTo_moves due s).trans hdue).trans (State.startScan_moves _))
  case h_2 => exact .refl s

theorem execScanEvaluation_leads (dt : Nat) (c : Conversions) (s : State) : Leads s (execScanEvaluation dt c s) := by
  have hdone : Moves s { s.advance dt with an := { (s.advance dt).an with scan := none } } :=
    (State.advance_moves dt s).trans (State.scanner_moves _ rfl rfl rfl rfl rfl)
  unfold execScanEvaluation
  dsimp only
  split
  · exact .of_moves (State.advance_moves dt s)
  · exact .of_moves hdone
  · exact .of_moves (hdone.trans (State.evaluateScan_moves _ _ _))

theorem execPostTimeExpiry_leads (s : State) : Leads s (execPostTimeExpiry s) := by
  unfold execPostTimeExpiry
  split
  · exact .of_moves ((State.advanceTo_moves _ s).tail (.freeze _))
  · exact .refl s

theorem execHoldLimitExpiry_leads (s : State) : Leads s (execHoldLimitExpiry s) := by
  unfold execHoldLimitExpiry
  split
  · refine .of_moves ?_
    split
    · exact .refl
    · exact (State.advanceTo_moves _ s).tail (.release _)
  · exact .refl s

theorem execBeaconDue_leads (s : State) : Leads s (execBeaconDue s) := by
  unfold execBeaconDue
  split
  case h_1 plan _ hplan =>
    have hdue (m : Nat) := (State.advanceTo_moves m s).trans
      (State.schedule_moves ((State.advanceTo_schedule m s).trans hplan) { plan with taken := plan.taken + 1 })
    refine .of_moves ?_
    dsimp only
    split
    · exact hdue _
    · exact ((hdue _).trans (State.beaconPending_moves _)).trans (LineMove.counts .beacon (by decide)).moves
  case h_2 => exact .refl s

theorem execSyncTimerExpiry_leads (s : State) : Leads s (execSyncTimerExpiry s) := by
  unfold execSyncTimerExpiry
  split
  · exact .of_moves (((State.advanceTo_moves _ s).trans (State.sync_moves _ _ _)).tail (.emit _))
  · exact .refl s

theorem execPeerPresenceExpiry_leads (peer : BitVec 5) (s : State) : Leads s (execPeerPresenceExpiry peer s) := by
  unfold execPeerPresenceExpiry
  split
  · exact .refl s
  · split
    · exact .of_moves (((State.advanceTo_moves _ s).trans (State.setPeer_moves _ _ _)).tail (.emit _))
    · exact .refl s

theorem execClashWindowExpiry_leads (s : State) : Leads s (execClashWindowExpiry s) := by
  unfold execClashWindowExpiry
  split
  · exact .refl s
  · exact .of_moves (((State.advanceTo_moves _ s).tail (.clash none)).tail (.emit _))

theorem execIdleGapMet_leads (s : State) : Leads s (execIdleGapMet s) := by
  unfold execIdleGapMet
  split
  · exact .refl s
  · refine .of_moves ?_
    split
    · exact (State.advanceTo_moves _ s).trans (State.recoverLine_moves _)
    · exact State.advanceTo_moves _ s

theorem execArbiterSelect_leads (s : State) : Leads s (execArbiterSelect s) := by
  unfold execArbiterSelect
  split
  case h_1 src hready hchosen =>
    simp only [State.arbiterReady, Bool.and_eq_true, beq_iff_eq, Option.isNone_iff_eq_none] at hready
    obtain ⟨⟨hline, hback⟩, -⟩ := hready
    exact .of_moves (Move.stage src (State.chosenSource_holdsItem hchosen) hline hback).moves
  case h_2 => exact .refl s

theorem execStagingEnd_leads (s : State) : Leads s (execStagingEnd s) := by
  unfold execStagingEnd
  split
  case h_1 since out h =>
    let s' := s.advanceTo (since + stagingTime)
    have hsends := LineMove.sends (s := s') s'.tu.elapsed (by simpa [s'] using h)
    exact .of_moves (((State.advanceTo_moves _ s).trans hsends.moves).trans (LineMove.times _ _).moves)
  all_goals exact .refl s

theorem execActivityBegins_leads (dt : Nat) (s : State) : Leads s (execActivityBegins dt s) := by
  refine .of_moves ?_
  split
  · exact (State.advance_moves dt s).trans (State.activityBegins_moves _)
  · exact State.advance_moves dt s

theorem execBackoffExpiry_leads (s : State) : Leads s (execBackoffExpiry s) := by
  unfold execBackoffExpiry
  split
  · exact .refl s
  · exact .of_moves ((State.advanceTo_moves _ s).trans LineMove.endsBackoff.moves)

theorem execActivityTimeExpiry_leads (s : State) : Leads s (execActivityTimeExpiry s) := by
  unfold execActivityTimeExpiry
  split
  case h_4 => exact .refl s
  all_goals exact .of_moves ((State.advanceTo_moves _ s).trans (State.becomeStuck_moves _))

theorem execReceptionBroken_leads (dt : Nat) (how : ReceptionEnd) (s : State) :
    Leads s (execReceptionBroken dt how s) := by
  unfold execReceptionBroken
  dsimp only
  split
  case h_1 h =>
    exact .of_moves (((State.advance_moves dt s).trans (State.lineQuiet_moves _)).trans
      (State.breakReception_moves (s := (s.advance dt).lineQuiet) h))
  case h_2 h =>
    refine .of_moves ?_
    split
    · exact State.advance_moves dt s
    · exact (State.advance_moves dt s).trans (State.breakReception_moves h)
  case h_3 => exact .of_moves (State.advance_moves dt s)

theorem execLineBecomesQuiet_leads (dt : Nat) (s : State) : Leads s (execLineBecomesQuiet dt s) := by
  refine .of_moves ?_
  split
  · exact (State.advance_moves dt s).trans (State.lineQuiet_moves _)
  · exact State.advance_moves dt s

theorem execFrameStartInstant_leads (dt : Nat) (s : State) : Leads s (execFrameStartInstant dt s) := by
  unfold execFrameStartInstant
  dsimp only
  split
  case h_1 h => exact .of_moves ((State.advance_moves dt s).trans (LineMove.stamps _ h).moves)
  case h_2 since out w h =>
    let s'' := (s.advance dt).advanceTo (since + startInstant)
    have hinserts := LineMove.inserts (s := s'') s''.tu.timeCount (by simpa [s''] using h)
    exact .of_moves (((State.advance_moves dt s).trans (State.advanceTo_moves _ _)).trans hinserts.moves)
  all_goals exact .of_moves (State.advance_moves dt s)

/-- A frame's own command: the end of its reception, and what the blocks then do. -/
theorem Leads.receive (dt : Nat) (f : Frame) {take : Nat → State → State} (htake : ∀ n s, Moves s (take n s))
    (s : State) : Leads s (.next ((s.advance dt).receive f take)) :=
  .of_moves ((State.advance_moves dt s).trans (State.receive_moves f htake _))

theorem execSupplyFallBelowWarning_leads (dt : Nat) (s : State) : Leads s (execSupplyFallBelowWarning dt s) := by
  refine .of_moves ?_
  split
  · exact .refl
  · exact State.supplyMoment_moves s (.fall dt)

/-- The steps a reset can strike in. -/
theorem State.runStep_course (s : State) (e : EventStep) : Course s (s.runStep e) := by
  cases e with
  | resetEnd => exact (execResetEnd_leads ..).stateOr
  | setupWindowExpiry => exact (execSetupWindowExpiry_leads ..).stateOr
  | setupEnd =>
    exact (Leads.receive _ _ (fun _ => State.takeEither_moves _ fun b => State.takeSetupEnd_moves b _) s).stateOr
  | inputEdge => exact (execInputEdge_leads ..).stateOr
  | qualifyTimeExpiry => exact (execQualifyTimeExpiry_leads ..).stateOr
  | scanEvaluation => exact (execScanEvaluation_leads ..).stateOr
  | beaconReceived => exact (Leads.receive _ _ (State.dispatch_moves _) s).stateOr
  | triggerReceived => exact (Leads.receive _ _ (State.dispatch_moves _) s).stateOr
  | eventReceived => exact (Leads.receive _ _ (State.dispatch_moves _) s).stateOr
  | otherFrameReceived => exact (Leads.receive _ _ (State.dispatch_moves _) s).stateOr
  | supplyFallBelowWarning =>
    exact (execSupplyFallBelowWarning_leads ..).stateOr

/-- A retaining reset, wherever it strikes. -/
theorem Course.beginReset {s u : State} (cause : ResetCause) (struck : Struck) (run : Moves s u) :
    Course s (u.beginReset cause struck) := by
  cases struck with
  | between => exact .resetBetween cause _ run
  | inFlight => exact .resetBetween cause _ run
  | inStep step passed =>
    unfold State.beginReset State.struckBy
    dsimp only
    split
    · exact .resetBetween cause _ run
    · exact .resetWithin cause _ passed run (State.runStep_course _ step)

theorem State.replyEnded_course {s u : State} (struck : Struck) (run : Moves s u) (hidle : u.lc.Idle) :
    Course s (u.replyEnded struck) := by
  unfold State.replyEnded
  split
  · exact .beginReset _ _ run
  · exact .moves (run.tail (.dropReply hidle))

theorem State.sourceCompleted_course {s u : State} (struck : Struck) (src : Source) (run : Moves s u)
    (hidle : u.lc.Idle) : Course s (u.sourceCompleted struck src) := by
  cases src with
  | trigger => exact .moves (run.tail (.dropTrigger hidle))
  | reply => exact State.replyEnded_course struck run hidle
  | beacon => exact .moves (run.tail (.dropBeacon hidle))
  | event => exact .moves (run.tail (.endBatch 0 hidle))

theorem State.sourceAbandoned_course {s u : State} (struck : Struck) (src : Source) (run : Moves s u)
    (hidle : u.lc.Idle) : Course s (u.sourceAbandoned struck src) := by
  cases src with
  | trigger =>
    dsimp only [State.sourceAbandoned]
    split
    · exact .moves run
    · exact .moves ((run.tail (.dropTrigger hidle)).tail (.write _))
  | reply => exact State.replyEnded_course struck run hidle
  | beacon => exact .moves (run.tail (.dropBeacon hidle))
  | event => exact .moves (run.tail (.endBatch _ hidle))

theorem State.countAttempt_course {s u : State} (struck : Struck) (src : Source) (k : Nat) (run : Moves s u)
    (hidle : u.lc.Idle) : Course s (u.countAttempt struck src k) := by
  unfold State.countAttempt
  split
  case isTrue => exact State.sourceAbandoned_course struck src (run.trans (LineMove.abandons src).moves) hidle
  case isFalse h => exact .moves (run.trans (LineMove.counts src (Nat.lt_of_not_le h)).moves)

theorem execCollision_leads (dt : Nat) (s : State) (struck : Struck) : Leads s (execCollision dt s struck) := by
  unfold execCollision
  dsimp only
  split
  case h_1 h =>
    have hcollide (k : Nat) := (State.advance_moves dt s).trans (LineMove.collides k h).moves
    exact ⟨_, rfl, State.countAttempt_course struck _ _ (hcollide _) (LineController.idle_of_line (.inl rfl))⟩
  case h_2 h => exact .of_moves ((State.advance_moves dt s).trans (LineMove.collides _ h).moves)
  all_goals exact .of_moves (State.advance_moves dt s)

theorem execTransmissionComplete_leads (s : State) (struck : Struck) :
    Leads s (execTransmissionComplete s struck) := by
  unfold execTransmissionComplete
  split
  case h_1 since out withdrawn h =>
    let s1 := (s.advanceTo (since + out.frame.duration)).lineQuiet
    have hcompletes := LineMove.completes (s := s1)
      (show s1.lc.line = .transmitting since out withdrawn by simpa [s1, State.lineQuiet] using h)
    have hquiet := ((State.advanceTo_moves (since + out.frame.duration) s).trans (State.lineQuiet_moves _)).trans
      hcompletes.moves
    dsimp only
    split
    · exact .of_moves hquiet
    · exact ⟨_, rfl, State.sourceCompleted_course struck _
        (hquiet.trans (LineMove.counts out.source (by decide)).moves) (LineController.idle_of_line (.inr rfl))⟩
  all_goals exact .refl s

/-- Every command answers a next state, and its course leads there. -/
theorem exec_leads (c : Instr) (s : State) : Leads s (exec c s) := by
  cases c with
  | resetPowerOn => exact ⟨_, rfl, .powerOn s⟩
  | resetSupplyLow struck => exact ⟨_, rfl, .beginReset _ struck .refl⟩
  | resetPin struck => exact ⟨_, rfl, .beginReset _ struck .refl⟩
  | resetEnd => exact execResetEnd_leads ..
  | setupWindowExpiry => exact execSetupWindowExpiry_leads ..
  | inputEdge => exact execInputEdge_leads ..
  | qualifyTimeExpiry => exact execQualifyTimeExpiry_leads ..
  | repeatTimerExpiry => exact execRepeatTimerExpiry_leads ..
  | chatterWindowExpiry => exact execChatterWindowExpiry_leads ..
  | restTimerExpiry => exact execRestTimerExpiry_leads ..
  | scanStart => exact execScanStart_leads s
  | scanEvaluation => exact execScanEvaluation_leads ..
  | postTimeExpiry => exact execPostTimeExpiry_leads s
  | holdLimitExpiry => exact execHoldLimitExpiry_leads s
  | beaconDue => exact execBeaconDue_leads s
  | syncTimerExpiry => exact execSyncTimerExpiry_leads s
  | timeCountTop => exact .of_moves (State.advance_moves _ s)
  | peerPresenceExpiry => exact execPeerPresenceExpiry_leads ..
  | clashWindowExpiry => exact execClashWindowExpiry_leads s
  | idleGapMet => exact execIdleGapMet_leads s
  | arbiterSelect => exact execArbiterSelect_leads s
  | stagingEnd => exact execStagingEnd_leads s
  | activityBegins => exact execActivityBegins_leads ..
  | collision => exact execCollision_leads ..
  | backoffExpiry => exact execBackoffExpiry_leads s
  | transmissionComplete => exact execTransmissionComplete_leads ..
  | activityTimeExpiry => exact execActivityTimeExpiry_leads s
  | receptionBroken => exact execReceptionBroken_leads ..
  | beaconReceived => exact .receive _ _ (State.dispatch_moves _) s
  | triggerReceived => exact .receive _ _ (State.dispatch_moves _) s
  | eventReceived => exact .receive _ _ (State.dispatch_moves _) s
  | clashFrameReceived => exact .receive _ _ (State.dispatch_moves _) s
  | otherFrameReceived => exact .receive _ _ (State.dispatch_moves _) s
  | query => exact .receive _ _ (fun _ => State.takeAddressed_moves _ (State.takeQuery_moves _)) s
  | fetch => exact .receive _ _ (fun _ => State.takeAddressed_moves _ fun _ => (Move.placeReply _ _).moves) s
  | peers => exact .receive _ _ (fun _ => State.takeAddressed_moves _ fun _ => (Move.placeReply _ _).moves) s
  | release => exact .receive _ _ (fun _ => State.takeEither_moves _ fun b => State.takeRelease_moves b _ _) s
  | force => exact .receive _ _ (fun _ => State.takeAddressed_moves _ State.takeForce_moves) s
  | config => exact .receive _ _ (fun _ => State.takeEither_moves _ fun b => State.takeConfig_moves b _) s
  | setupEnd => exact .receive _ _ (fun _ => State.takeEither_moves _ fun b => State.takeSetupEnd_moves b _) s
  | restart => exact .receive _ _ (fun _ => State.takeAddressed_moves _ State.takeRestart_moves) s
  | supplyFallBelowWarning => exact execSupplyFallBelowWarning_leads ..
  | supplyRiseAboveHysteresis => exact .of_moves (State.supplyMoment_moves s (.rise _))
  | supplyDipBelowHysteresis => exact .of_moves (State.supplyMoment_moves s (.dip _))
  | restoreTimerExpiry => exact .of_moves (State.supplyRestored_moves s)
  | lineBecomesQuiet => exact execLineBecomesQuiet_leads ..
  | frameStartInstant => exact execFrameStartInstant_leads ..
  | supplyBelowRetentionLevel =>
    refine .of_moves ?_
    split
    · exact Move.mismatches.moves
    · exact .refl

end Sys2Proof.Machine
end

section
/-!
The invariants that hold in every course: the ring, the router, the configuration and the tables. What the handling of
events keeps is said once, in `State.KeptByEvents`, and what a course keeps in `Course.keeps`.
-/

namespace Sys2Proof.Machine

/-- What the steps of an event's handling and the points of a step keep. -/
structure State.KeptByEvents (P : State → Prop) : Prop where
  write : ∀ {s : State} (d : Draft), P s → P (s.write d).1
  announce : ∀ {s : State} (e : LocalEvent) (ownSeq : Option Nat), P s → P (s.announceStep e ownSeq)
  request : ∀ {s : State} (cause : Cause) (time : Option Nat), s.sc.op = .running → P s → P (s.requestTrigger cause time)
  cut : ∀ {s : State} (n : Option Nat), P s → P { s with cut := n }
  strike : ∀ {s : State}, P s → P s.strike

section

variable {P : State → Prop}

theorem State.KeptByEvents.writeStep (k : State.KeptByEvents P) {s : State} (e : LocalEvent) (h : P s) :
    P (s.writeStep e).1 := by
  have hwrite := k.write (s.ownDraft e.time e.kind e.subject e.value none) h
  unfold State.writeStep
  repeat' split
  all_goals simp_all only

theorem State.KeptByEvents.handleEvent (k : State.KeptByEvents P) {s : State} (e : LocalEvent)
    (hop : s.sc.op = .running) (h : P s) : P (s.handleEvent e) := by
  have hannounced := k.announce e (s.writeStep e).2 (k.writeStep e h)
  unfold State.handleEvent State.triggerStep
  dsimp only
  split
  · exact hannounced
  · exact k.request _ _ (by simpa using hop) hannounced

/-- What the steps of its handling keep, an event keeps, struck or not. -/
theorem State.KeptByEvents.emit (k : State.KeptByEvents P) {s : State} (e : LocalEvent) (h : P s) : P (s.emit e) := by
  unfold State.emit
  split
  case isFalse => exact h
  case isTrue hop =>
    split
    · exact k.handleEvent e hop h
    · exact k.strike (k.writeStep e h)
    · exact k.strike (k.handleEvent e hop (k.cut none h))
    · exact k.handleEvent e hop (k.cut _ h)

theorem State.KeptByEvents.passPoint (k : State.KeptByEvents P) {s : State} (h : P s) : P s.passPoint := by
  unfold State.passPoint
  split
  · exact h
  · exact k.strike h
  · exact k.cut _ h

theorem State.KeptByEvents.writeHeard (k : State.KeptByEvents P) {s : State} (d : Draft) (h : P s) :
    P (s.writeHeard d) := by
  unfold State.writeHeard
  split
  · exact k.passPoint (k.write d h)
  · exact h

/-- RUNNING with the capture state the setting gives, before the first opening entry (R171). -/
def State.opened (s : State) : State :=
  { s with sc := { s.sc with op := .running, setupSince := none } }.captureAtRunning

/-- Entry to RUNNING keeps what its handling of events keeps, if it holds once the capture state has changed and is not
about what then starts. -/
theorem State.KeptByEvents.enterRunning (k : State.KeptByEvents P) {s : State} (levels : BitVec 12) (h : P s.opened)
    (hloss : ∀ u : State, P u → P { u with sc := { u.sc with historyLost := false } })
    (hstart : ∀ (u : State) (iq : List InputRecord) (next : Nat) (plan : Schedule), iq.length = 12 → P u →
      P { u with
        iq
        an := { u.an with nextScan := some next }
        tu := { u.tu with schedule := some plan } }) : P (s.enterRunning levels) := by
  unfold State.enterRunning
  dsimp only
  refine hstart _ _ _ _ (by simp [State.observedInputs]) (k.emit _ (k.emit _ (hloss _ ?_)))
  split
  · exact k.emit _ (k.passPoint h)
  · exact k.passPoint h

/-- The reference result of a check scan keeps what its events keep, if that is about neither the reference state, nor the
condition set, nor the channels' records (R70 to R74). -/
theorem State.KeptByEvents.checkReference (k : State.KeptByEvents P) {s : State} (time : Nat) (c : Conversions)
    (h : P s) (href : ∀ (u : State) (reference : Reference), P u → P { u with an := { u.an with reference } })
    (hchannels : ∀ u : State, P u → P { u with an := { u.an with channels := List.replicate 4 (.normal none none) } })
    (hcondition : ∀ (u : State) (m : Condition) (v : Bool), P u → P (u.setCondition m v)) :
    P (s.checkReference time c).1 := by
  unfold State.checkReference
  dsimp only
  split
  · split
    · exact hcondition _ _ _ (k.emit _ (href s _ h))
    · exact h
  · split
    · exact href s _ h
    · split
      · exact href s _ h
      · exact hcondition _ _ _ (k.emit _ (href _ _ (hchannels s h)))

/-- What every move keeps, moves keep. -/
theorem Moves.keeps (hmove : ∀ {s t : State}, Move s t → P s → P t) {s t : State} (run : Moves s t) (h : P s) : P t := by
  induction run with
  | refl => exact h
  | tail _ m ih => exact hmove m ih

/-- What the parts of STARTING keep, its steps keep as far as they go (R167). -/
theorem State.runStarting_keeps (hread : ∀ {s : State} (straps : Straps), P s → P (s.readStraps straps))
    (hrestore : ∀ {s : State}, P s → P s.restore)
    (hfault : ∀ {s : State}, P s → P { s with sc := { s.sc with op := .startFault } })
    (hsetup : ∀ {s : State} (since : Nat), P s →
      P { s.startReceiver with sc := { s.sc with op := .setup, setupSince := some since } })
    (hrunning : ∀ {s : State} (levels : BitVec 12), P s → P (s.startReceiver.enterRunning levels))
    {s : State} (straps : Straps) (ending : StartingEnd) (levels : BitVec 12) (h : P s) :
    P (s.runStarting straps ending levels) := by
  have hleave (u : State) (hu : P u) : P (u.leaveStarting levels) := by
    unfold State.leaveStarting
    split
    · exact hfault hu
    · split
      · exact hsetup _ hu
      · exact hrunning levels hu
  cases ending with
  | completes => exact hleave _ (hrestore (hread straps h))
  | struckBeforeRestore => exact hread straps h
  | struckAfterRestore => exact hrestore (hread straps h)

/-- What every move, the end of a held reset and the resets keep, a course keeps. -/
theorem Course.keeps (hmove : ∀ {s t : State}, Move s t → P s → P t) (hunheld : ∀ {s : State}, P s → P s.unheld)
    (hstarting : ∀ {s : State} (straps : Straps) (ending : StartingEnd) (levels : BitVec 12), P s →
      P (s.runStarting straps ending levels))
    (hpower : ∀ {s : State}, P s → P s.beginPowerOn) (hcut : ∀ {s : State} (n : Option Nat), P s → P { s with cut := n })
    (hreset : ∀ {s : State} (cause : ResetCause) (inside : Bool), P s → P (s.beginRetaining cause inside))
    {s t : State} (course : Course s t) (h : P s) : P t := by
  induction course with
  | moves run => exact run.keeps hmove h
  | starting straps ending levels _ watched _ => exact hstarting straps ending levels (watched.keeps hmove (hunheld h))
  | powerOn s => exact hpower h
  | resetBetween cause inside run => exact hreset cause inside (run.keeps hmove h)
  | resetWithin cause inside passed run _ ih => exact hreset cause inside (ih (hcut _ (run.keeps hmove h)))

end

/-- A step leads to its next state by a course, from the state with the queue's rest. -/
theorem step_course {s t : State} (h : step s = .next t) : ∃ rest, Course { s with pending := rest } t := by
  unfold step at h
  split at h
  · refine ⟨s.pending, ?_⟩
    injection h with h
    subst h
    exact .moves (State.advance_moves 1 s)
  · obtain ⟨_, hnext, hcourse⟩ := exec_leads _ _
    rw [hnext] at h
    injection h with h
    subst h
    exact ⟨_, hcourse⟩

/-! ## What staging and the end of a batch change -/

/-- Forming a batch changes the router alone (R92). -/
theorem State.formBatch_eq (s : State) : s.formBatch = { s with er := s.formBatch.er } := by
  unfold State.formBatch
  split <;> rfl

/-- Staging changes the router and the line state alone (R92, R129). -/
theorem State.stage_eq (src : Source) (s : State) :
    s.stage src = { s with er := (s.stage src).er, lc := (s.stage src).lc } := by
  have hform : (if src = .event then s.formBatch else s) =
      { s with er := (if src = .event then s.formBatch else s).er } := by
    split
    · exact s.formBatch_eq
    · rfl
  unfold State.stage
  dsimp only
  rw [hform]
  split <;> rfl

/-- The end of a batch changes the router alone (R94, R96). -/
theorem State.endBatch_eq (drops : Nat) (s : State) : s.endBatch drops = { s with er := (s.endBatch drops).er } := by
  unfold State.endBatch
  split <;> rfl

/-! ## The ring -/

theorem State.Sound.keptByEvents : State.KeptByEvents fun s => s.hr.Sound where
  write d h := State.Sound.write h d
  announce e q h := by simpa using h
  request cause time _ h := State.Sound.requestTrigger h cause time
  cut _ h := h
  strike h := h

theorem State.Sound.freeze {s : State} (h : s.hr.Sound) (reason : FreezeReason) : (s.freeze reason).hr.Sound := by
  rcases State.freeze_hr reason s with e | e <;> rw [e]
  · exact h
  · exact h.withCheck _

theorem State.Sound.opened {s : State} (h : s.hr.Sound) : s.opened.hr.Sound := by
  unfold State.opened State.captureAtRunning
  split
  · exact h.withCheck _
  · exact h.withCheck _
  · exact h
  · exact h

theorem State.Sound.enterRunning {s : State} (h : s.hr.Sound) (levels : BitVec 12) : (s.enterRunning levels).hr.Sound :=
  State.Sound.keptByEvents.enterRunning levels (State.Sound.opened h) (fun _ hu => hu) fun _ _ _ _ _ hu => hu

theorem Move.keepsRing {s t : State} (m : Move s t) (h : s.hr.Sound) : t.hr.Sound := by
  cases m with
  | emit e => exact State.Sound.emit h e
  | writeHeard d => exact State.Sound.writeHeard h d
  | write d => exact State.Sound.write h d
  | originate => exact State.Sound.originate h _ _
  | enterPost => exact State.Sound.enterPost h _ _
  | compare => exact State.Sound.compare h _
  | release => exact State.Sound.release h _
  | freeze => exact State.Sound.freeze h _
  | mismatches => exact h.withCheck _
  | enterRunning => exact State.Sound.enterRunning h _
  | checkReference => exact State.Sound.keptByEvents.checkReference _ _ h (fun _ _ hu => hu) (fun _ hu => hu) fun _ _ _ hu => hu
  | stage => rwa [State.stage_eq]
  | endReply => simpa using h
  | placeReply => simpa using h
  | endBatch => rwa [State.endBatch_eq]
  | _ => exact h


theorem State.Sound.readStraps {s : State} (h : s.hr.Sound) (straps : Straps) : (s.readStraps straps).hr.Sound := by
  unfold State.readStraps
  dsimp only
  split <;> exact h

/-- The restore keeps the ring or empties it (R16, R18). -/
theorem State.Sound.restore {s : State} (h : s.hr.Sound) : s.restore.hr.Sound := by
  unfold State.restore
  split
  case isTrue => exact Ring.Sound.emptied h.size
  case isFalse =>
    split
    case h_1 =>
      unfold State.cutShort
      split
      case h_3 => exact h.withCheck _
      all_goals exact h
    case h_2 => exact Ring.Sound.emptied h.size

theorem Course.keepsRing {s t : State} (course : Course s t) (h : s.hr.Sound) : t.hr.Sound := by
  refine course.keeps (P := fun s => s.hr.Sound) Move.keepsRing id ?_ ?_ (fun _ h => h) ?_ h
  · exact State.runStarting_keeps (P := fun s => s.hr.Sound) (fun straps h => State.Sound.readStraps h straps)
      State.Sound.restore id (fun _ h => h) fun levels h =>
        State.Sound.enterRunning (s := State.startReceiver _) h levels
  · exact fun h => Ring.Sound.emptied h.size
  · intro s cause inside h
    unfold State.beginRetaining
    dsimp only
    split
    · exact h.withCheck _
    · exact h

/-- Settles O10: every move, the steps of STARTING and the resets keep the ring sound. -/
theorem stepKeepsTheRingSound : Obligations.StepKeepsTheRingSound := by
  intro s t h hstep
  obtain ⟨rest, hcourse⟩ := step_course hstep
  exact hcourse.keepsRing h

end Sys2Proof.Machine
end

section
/-!
The Event Router stays sound (R87, R90, R92, R96): what an announcement, the forming of a batch and the end of one do to
its bounds; nothing else touches it but a reset.
-/

namespace Sys2Proof.Machine

/-- A router without entries, drops and batch is sound. -/
theorem Router.Sound.initial : Router.initial.Sound where
  queueMax := Nat.zero_le _
  dropsMax := Nat.zero_le _
  numberMax := Nat.zero_le _
  inFlight := by simp [Router.initial]

/-- A count that stops at its top value does not pass it (5.2). -/
theorem satAdd_le (top n k : Nat) : satAdd top n k ≤ top := Nat.min_le_right _ _

/-- A cyclic number is 1 to 255 (5.2). -/
theorem cyclicNext_pos (n : Nat) : 1 ≤ cyclicNext n := by
  unfold cyclicNext
  split <;> omega

theorem cyclicNext_le (n : Nat) : cyclicNext n ≤ top8 := by
  unfold cyclicNext top8
  split <;> omega

theorem State.announceStep_routerSound {s : State} (h : s.er.Sound) (e : LocalEvent) (ownSeq : Option Nat) :
    (s.announceStep e ownSeq).er.Sound := by
  obtain ⟨hqueue, hdrops, hnumber, hflight⟩ := h
  unfold State.announceStep
  split
  · split
    case isTrue hroom =>
      refine ⟨by simpa using hroom, hdrops, hnumber, fun b hb => ?_⟩
      obtain ⟨h1, h2, h3, h4, h5⟩ := hflight b hb
      exact ⟨h1, h2, h3, h4, h5.trans (by simp)⟩
    case isFalse => exact ⟨hqueue, satAdd_le _ _ _, hnumber, hflight⟩
  · exact ⟨hqueue, hdrops, hnumber, hflight⟩

theorem State.formBatch_routerSound {s : State} (h : s.er.Sound) : s.formBatch.er.Sound := by
  obtain ⟨hqueue, hdrops, hnumber, -⟩ := id h
  unfold State.formBatch
  split
  · exact h
  · refine ⟨hqueue, Nat.zero_le _, cyclicNext_le _, fun b hb => ?_⟩
    obtain rfl := Option.some.inj hb
    exact ⟨cyclicNext_pos _, rfl, hdrops, Nat.min_le_left _ _, Nat.min_le_right _ _⟩

theorem State.stage_routerSound {s : State} (h : s.er.Sound) (src : Source) : (s.stage src).er.Sound := by
  have hform : (if src = .event then s.formBatch else s).er.Sound := by
    split
    · exact State.formBatch_routerSound h
    · exact h
  unfold State.stage
  dsimp only
  split <;> exact hform

theorem State.endBatch_routerSound {s : State} (h : s.er.Sound) (drops : Nat) : (s.endBatch drops).er.Sound := by
  obtain ⟨hqueue, -, hnumber, -⟩ := id h
  unfold State.endBatch
  split
  · exact h
  · refine ⟨?_, satAdd_le _ _ _, hnumber, by simp⟩
    dsimp only
    rw [List.length_drop]
    omega

theorem Router.Sound.keptByEvents : State.KeptByEvents fun s => s.er.Sound where
  write d h := by simpa using h
  announce e q h := State.announceStep_routerSound h e q
  request cause time _ h := by simpa using h
  cut _ h := h
  strike h := h

theorem State.enterRunning_routerSound {s : State} (h : s.er.Sound) (levels : BitVec 12) :
    (s.enterRunning levels).er.Sound :=
  Router.Sound.keptByEvents.enterRunning levels (by simpa [State.opened] using h) (fun _ hu => hu)
    fun _ _ _ _ _ hu => hu

theorem Move.keepsRouter {s t : State} (m : Move s t) (h : s.er.Sound) : t.er.Sound := by
  cases m with
  | emit e => exact Router.Sound.keptByEvents.emit e h
  | checkReference =>
    exact Router.Sound.keptByEvents.checkReference _ _ h (fun _ _ hu => hu) (fun _ hu => hu) fun _ _ _ hu => hu
  | enterRunning levels => exact State.enterRunning_routerSound h levels
  | stage src => exact State.stage_routerSound h src
  | endBatch drops => exact State.endBatch_routerSound h drops
  | _ => simpa using h

theorem State.readStraps_er (straps : Straps) (s : State) : (s.readStraps straps).er = s.er := by
  unfold State.readStraps
  dsimp only
  split <;> rfl

theorem State.restore_er (s : State) : s.restore.er = s.er := by
  unfold State.restore State.cutShort
  dsimp only
  repeat' split
  all_goals rfl

/-- Settles O14: only announcements and batches touch the router, and each keeps its bounds; a reset empties it. -/
theorem stepKeepsTheRouterSound : Obligations.StepKeepsTheRouterSound := by
  intro s t h hstep
  obtain ⟨rest, hcourse⟩ := step_course hstep
  refine hcourse.keeps (P := fun s => s.er.Sound) Move.keepsRouter id ?_ ?_ (fun _ h => h) ?_ h
  · exact State.runStarting_keeps (P := fun s => s.er.Sound) (fun straps h => by rwa [State.readStraps_er])
      (fun h => by rwa [State.restore_er]) id (fun _ h => h) fun levels h =>
        State.enterRunning_routerSound (s := State.startReceiver _) h levels
  · exact fun _ => Router.Sound.initial
  · exact fun _ _ _ => Router.Sound.initial

end Sys2Proof.Machine
end

section
/-!
The configuration in force, what belongs to an operating state, and the tables stay sound (R49, R69, R79, R102, R113,
R165 to R171, R176 to R178).
-/

namespace Sys2Proof.Machine

/-! ## The configuration -/

theorem parseInputs_valid {body : List Byte} {xs : List InputSetting} (h : parseInputs body = some xs) :
    xs.length = 6 ∧ ∀ x ∈ xs, x.valid = true := by
  obtain ⟨hlength, hparse⟩ := (allSome_range_iff 6 _ xs).mp h
  refine ⟨hlength, fun x hx => ?_⟩
  obtain ⟨i, hi, hget⟩ := List.mem_iff_getElem.mp hx
  have hi' := hparse i x (hlength ▸ hi) (List.getElem?_eq_some_iff.mpr ⟨hi, hget⟩)
  unfold parseInput at hi'
  dsimp only at hi'
  repeat' split at hi'
  all_goals simp_all

theorem parseChannel_valid {b : List Byte} {x : ChannelSetting} (h : parseChannel b = some x) : x.valid = true := by
  unfold parseChannel at h
  simp only [Option.ite_none_right_eq_some, Bool.and_eq_true, Option.some.injEq] at h
  obtain ⟨⟨-, hvalid⟩, rfl⟩ := h
  exact hvalid

theorem parseAnalog_valid {body : List Byte} {a : AnalogSection} (h : parseAnalog body = some a) :
    (a.channels.length = 4 ∧ ∀ x ∈ a.channels, x.valid = true) ∧
      (a.interval = 0 ∨ a.dither = false ∨ 16 ≤ a.interval) := by
  unfold parseAnalog at h
  split at h
  case h_2 => cases h
  case h_1 channels dither hchannels _ =>
    simp only [Option.ite_none_right_eq_some, Option.some.injEq] at h
    obtain ⟨hinterval, rfl⟩ := h
    obtain ⟨hlength, hparse⟩ := (allSome_range_iff 4 _ channels).mp hchannels
    refine ⟨⟨hlength, fun x hx => ?_⟩, by simpa [or_assoc] using hinterval⟩
    obtain ⟨i, hi, hget⟩ := List.mem_iff_getElem.mp hx
    exact parseChannel_valid (hparse i x (hlength ▸ hi) (List.getElem?_eq_some_iff.mpr ⟨hi, hget⟩))

theorem parseStation_valid {b : List Byte} {x : StationSection} (h : parseStation b = some x) : x.valid = true := by
  unfold parseStation at h
  split at h
  · simp only [Option.ite_none_right_eq_some, Option.some.injEq] at h
    obtain ⟨hvalid, rfl⟩ := h
    exact hvalid
  · cases h

/-- What R176 to R178 allow of a section that has passed the tests of R175. -/
def SectionResult.Valid : SectionResult → Prop
  | .unknownSection => True
  | .outOfRange => True
  | .inputsLow x => x.length = 6 ∧ ∀ i ∈ x, i.valid = true
  | .inputsHigh x => x.length = 6 ∧ ∀ i ∈ x, i.valid = true
  | .analog x => (x.channels.length = 4 ∧ ∀ c ∈ x.channels, c.valid = true) ∧
      (x.interval = 0 ∨ x.dither = false ∨ 16 ≤ x.interval)
  | .station x => x.valid = true

theorem parseSection_valid (p : List Byte) : (parseSection p).Valid := by
  unfold parseSection
  dsimp only
  split
  case h_1 =>
    split
    · split
      · exact parseInputs_valid ‹_›
      · trivial
    · trivial
  case h_2 =>
    split
    · split
      · exact parseInputs_valid ‹_›
      · trivial
    · trivial
  case h_3 =>
    split
    · split
      · exact parseAnalog_valid ‹_›
      · trivial
    · trivial
  case h_4 =>
    split
    · split
      · exact parseStation_valid ‹_›
      · trivial
    · trivial
  case h_5 => trivial

/-- An accepted section leaves a configuration that R176 to R178 allow; a refused one leaves it as it is (R175). -/
theorem Configuration.Sound.configure {c : StartupController} (h : c.config.Sound) {r : SectionResult} (hr : r.Valid) :
    (c.configure r).config.Sound := by
  obtain ⟨hlow, hhigh, hchannels, hinterval, hstation⟩ := h
  cases r with
  | inputsLow => exact ⟨hr, hhigh, hchannels, hinterval, hstation⟩
  | inputsHigh => exact ⟨hlow, hr, hchannels, hinterval, hstation⟩
  | analog => exact ⟨hlow, hhigh, hr.1, hr.2, hstation⟩
  | station => exact ⟨hlow, hhigh, hchannels, hinterval, hr⟩
  | _ => exact ⟨hlow, hhigh, hchannels, hinterval, hstation⟩

/-- Both profiles are configurations that R176 to R178 allow (R174). -/
theorem Configuration.Sound.profileOf (strap : Bool) : (profileOf strap).Sound := by
  cases strap <;> constructor <;> decide

theorem Configuration.Sound.keptByEvents : State.KeptByEvents fun s => s.sc.config.Sound where
  write d h := by simpa using h
  announce e q h := by simpa using h
  request cause time _ h := by simpa using h
  cut _ h := h
  strike h := h

theorem State.enterRunning_configSound {s : State} (h : s.sc.config.Sound) (levels : BitVec 12) :
    (s.enterRunning levels).sc.config.Sound :=
  Configuration.Sound.keptByEvents.enterRunning levels (by simpa [State.opened] using h) (fun _ hu => hu)
    fun _ _ _ _ _ hu => hu

theorem Move.keepsConfig {s t : State} (m : Move s t) (h : s.sc.config.Sound) : t.sc.config.Sound := by
  cases m with
  | writeHeard d => exact Configuration.Sound.keptByEvents.writeHeard d h
  | checkReference =>
    exact Configuration.Sound.keptByEvents.checkReference _ _ h (fun _ _ hu => hu) (fun _ hu => hu) fun _ _ _ hu => hu
  | clash => exact h
  | supply => exact h
  | configure payload => exact Configuration.Sound.configure h (parseSection_valid payload)
  | enterRunning levels => exact State.enterRunning_configSound h levels
  | stage => rwa [State.stage_eq]
  | endBatch => rwa [State.endBatch_eq]
  | sticks => exact h
  | recovers => exact h
  | _ => simpa using h

theorem State.readStraps_configSound (straps : Straps) (s : State) : (s.readStraps straps).sc.config.Sound := by
  unfold State.readStraps
  dsimp only
  split <;> exact .profileOf _

theorem State.restore_config (s : State) : s.restore.sc.config = s.sc.config := by
  unfold State.restore State.cutShort
  dsimp only
  repeat' split
  all_goals rfl

theorem stepKeepsConfiguration {s t : State} (h : s.sc.config.Sound) (hstep : step s = .next t) : t.sc.config.Sound := by
  obtain ⟨rest, hcourse⟩ := step_course hstep
  refine hcourse.keeps (P := fun s => s.sc.config.Sound) Move.keepsConfig id ?_ ?_ (fun _ h => h) ?_ h
  · exact State.runStarting_keeps (P := fun s => s.sc.config.Sound) (fun straps _ => State.readStraps_configSound straps _)
      (fun h => by rwa [State.restore_config]) id (fun _ h => h) fun levels h =>
        State.enterRunning_configSound (s := State.startReceiver _) h levels
  · exact fun _ => .profileOf _
  · exact fun _ _ _ => .profileOf _

/-! ## The tables -/

/-- The dither generator's step: twice the content modulo 32768, plus the feedback bit (R79). -/
theorem ditherStep_eq (v : Nat) : ditherStep v = 2 * v % 32768 +
    (if (16384 ≤ v ∧ v % 16384 < 8192) ∨ (v < 16384 ∧ 8192 ≤ v % 16384) then 1 else 0) := by
  unfold ditherStep
  by_cases h1 : 16384 ≤ v <;> by_cases h2 : 8192 ≤ v % 16384 <;> simp [h1, h2]

/-- The generator never holds 0 and never passes 32767 (R79). -/
theorem ditherStep_range {v : Nat} (h : 1 ≤ v ∧ v ≤ 32767) : 1 ≤ ditherStep v ∧ ditherStep v ≤ 32767 := by
  rw [ditherStep_eq]
  split <;> omega

/-- A cyclic position is 1 to n (R70, R78). -/
theorem nextPosition_range {n : Nat} (hn : 1 ≤ n) (p : Option Nat) : 1 ≤ nextPosition n p ∧ nextPosition n p ≤ n := by
  cases p with
  | none => exact ⟨le_rfl, hn⟩
  | some p =>
    unfold nextPosition
    dsimp only
    split <;> omega

/-- What leaves the inputs, the scanner, the Time Unit and the peers keeps the tables sound. -/
theorem State.TablesSound.of_eq {s t : State} (h : s.TablesSound) (hiq : t.iq = s.iq := by simp)
    (han : t.an = s.an := by simp) (htu : t.tu = s.tu := by simp) (hpm : t.pm = s.pm := by simp) : t.TablesSound where
  timeMax := htu ▸ h.timeMax
  inputs := hiq ▸ h.inputs
  channels := han ▸ h.channels
  peers := hpm ▸ h.peers
  ditherRange := han ▸ h.ditherRange
  checkRange := han ▸ h.checkRange

theorem State.TablesSound.keptByEvents : State.KeptByEvents State.TablesSound where
  write _ h := h.of_eq
  announce _ _ h := h.of_eq
  request _ _ _ h := h.of_eq
  cut _ h := h.of_eq
  strike h := h.of_eq

theorem State.TablesSound.enterRunning {s : State} (h : s.TablesSound) (levels : BitVec 12) :
    (s.enterRunning levels).TablesSound := by
  refine State.TablesSound.keptByEvents.enterRunning levels ?_ (fun _ hu => hu.of_eq) fun u iq next plan hiq hu => ?_
  · exact h.of_eq (by simp [State.opened]) (by simp [State.opened]) (by simp [State.opened]) (by simp [State.opened])
  · exact ⟨hu.timeMax, hiq, hu.channels, hu.peers, hu.ditherRange, hu.checkRange⟩

theorem Move.keepsTables {s t : State} (m : Move s t) (h : s.TablesSound) : t.TablesSound := by
  obtain ⟨htime, hinputs, hchannels, hpeers, hdither, hcheck⟩ := id h
  cases m with
  | writeHeard d => exact State.TablesSound.keptByEvents.writeHeard d h
  | inputs iq hlength => exact ⟨htime, hlength.trans hinputs, hchannels, hpeers, hdither, hcheck⟩
  | scanner an hlength hgenerator hposition =>
    refine ⟨htime, hinputs, hlength.trans hchannels, hpeers, ?_, ?_⟩
    · rcases hgenerator with e | e <;> simp only [e]
      · exact hdither
      · exact ditherStep_range hdither
    · rcases hposition with e | e <;> simp only [e]
      · exact hcheck
      · rintro p ⟨⟩
        exact nextPosition_range (by decide) _
  | checkReference =>
    refine State.TablesSound.keptByEvents.checkReference _ _ h (fun u _ hu => ?_) (fun u hu => ?_) fun _ _ _ hu => hu.of_eq
    · exact ⟨hu.timeMax, hu.inputs, hu.channels, hu.peers, hu.ditherRange, hu.checkRange⟩
    · exact ⟨hu.timeMax, hu.inputs, rfl, hu.peers, hu.ditherRange, hu.checkRange⟩
  | peers ps hlength => exact ⟨htime, hinputs, hchannels, hlength.trans hpeers, hdither, hcheck⟩
  | clash => exact ⟨htime, hinputs, hchannels, hpeers, hdither, hcheck⟩
  | timeUnit tu hcount => exact ⟨(hcount htime).2, hinputs, hchannels, hpeers, hdither, hcheck⟩
  | dropBeacon => exact ⟨htime, hinputs, hchannels, hpeers, hdither, hcheck⟩
  | enterRunning levels => exact h.enterRunning levels
  | stage src => rw [State.stage_eq]; exact h.of_eq
  | endBatch drops => rw [State.endBatch_eq]; exact h.of_eq
  | _ => exact h.of_eq

theorem State.TablesSound.readStraps {s : State} (h : s.TablesSound) (straps : Straps) :
    (s.readStraps straps).TablesSound := by
  have hseed : 1 ≤ ditherSeed + straps.address.toNat ∧ ditherSeed + straps.address.toNat ≤ 32767 := by
    have := straps.address.isLt
    unfold ditherSeed
    omega
  unfold State.readStraps
  dsimp only
  split <;> exact ⟨h.timeMax, h.inputs, h.channels, h.peers, hseed, h.checkRange⟩

theorem State.TablesSound.restore {s : State} (h : s.TablesSound) : s.restore.TablesSound := by
  unfold State.restore State.cutShort
  dsimp only
  repeat' split
  all_goals exact h.of_eq

theorem State.TablesSound.resetBlocks {s : State} (h : s.TablesSound) : s.resetBlocks.TablesSound where
  timeMax := Nat.zero_le _
  inputs := rfl
  channels := rfl
  peers := rfl
  ditherRange := h.ditherRange
  checkRange := by simp [State.resetBlocks, Scanner.initial]

theorem stepKeepsTables {s t : State} (h : s.TablesSound) (hstep : step s = .next t) : t.TablesSound := by
  obtain ⟨rest, hcourse⟩ := step_course hstep
  refine hcourse.keeps (P := State.TablesSound) Move.keepsTables ?unheld ?starting ?power ?cut ?reset h.of_eq
  case unheld => exact fun h => h.of_eq rfl rfl rfl rfl
  case starting =>
    refine State.runStarting_keeps (fun straps h => h.readStraps straps) (fun h => h.restore) ?_ ?_ ?_
    · exact fun h => h.of_eq
    · exact fun _ h => h.of_eq
    · exact fun levels h => State.TablesSound.enterRunning h.of_eq levels
  case power => exact fun h => h.resetBlocks.of_eq rfl rfl rfl rfl
  case cut => exact fun _ h => h.of_eq
  case reset => exact fun _ _ h => h.resetBlocks.of_eq rfl rfl rfl rfl

/-! ## Between commands no reset strikes -/

/-- Where no reset strikes, an event leaves it so. -/
theorem State.emit_cut (e : LocalEvent) {s : State} (h : s.cut = none) : (s.emit e).cut = none := by
  unfold State.emit
  rw [h]
  split <;> simp [h]

theorem State.opened_eq_passPoint {s : State} (h : s.cut = none) : s.opened.passPoint = s.opened :=
  State.passPoint_uncut (by simpa [State.opened] using h)

/-- Where no reset strikes, entry to RUNNING changes of the Start-up Controller what R171 and R172 say, and starts the
schedule and the scans. -/
theorem State.enterRunning_uncut (levels : BitVec 12) {s : State} (h : s.cut = none) :
    (s.enterRunning levels).sc = { s.sc with op := .running, setupSince := none, historyLost := false } ∧
      (s.enterRunning levels).cut = none ∧ (s.enterRunning levels).tu.schedule.isSome = true ∧
      (s.enterRunning levels).an.nextScan.isSome = true := by
  have hopened : s.opened.cut = none := by simpa [State.opened] using h
  have hsc : s.opened.sc = { s.sc with op := .running, setupSince := none } := by simp [State.opened]
  have hfirst (c : Bool) (e : LocalEvent) : (if c then s.opened.emit e else s.opened).sc = s.opened.sc ∧
      (if c then s.opened.emit e else s.opened).cut = none := by
    cases c
    · exact ⟨rfl, hopened⟩
    · exact ⟨State.emit_sc e hopened, State.emit_cut e hopened⟩
  unfold State.enterRunning
  dsimp only
  rw [show State.passPoint (State.captureAtRunning _) = s.opened from State.opened_eq_passPoint h]
  simp [State.emit_sc, State.emit_cut, hfirst, hsc]

/-- What the operating state has to do with (R24, R104, R165 to R171). -/
def State.standing (s : State) :=
  (s.sc.resetHeld, s.sc.op, s.sc.captHeld, s.sc.setupSince, s.sc.straps, s.sc.historyLost, s.tu.schedule.isSome,
    s.an.nextScan.isSome, s.cut)

theorem State.StartupSound.of_standing {s t : State} (h : s.StartupSound) (e : t.standing = s.standing) :
    t.StartupSound := by
  obtain ⟨hheld, hcapt, hwindow, hschedule, hscans, haddress, hloss, hcut⟩ := h
  simp only [State.standing, Prod.mk.injEq] at e
  obtain ⟨e1, e2, e3, e4, e5, e6, e7, e8, e9⟩ := e
  constructor <;> simp only [State.address, e1, e2, e3, e4, e5, e6, e7, e8, e9] <;> assumption

theorem State.emit_standing (e : LocalEvent) {s : State} (h : s.cut = none) : (s.emit e).standing = s.standing := by
  simp [State.standing, State.emit_sc e h, State.emit_cut e h, h]

theorem State.StartupSound.enterRunning {s : State} (h : s.StartupSound) (levels : BitVec 12)
    (hheld : s.sc.resetHeld = false) (hcapt : s.sc.captHeld = false) (haddress : 1 ≤ s.address ∧ s.address ≤ 30) :
    (s.enterRunning levels).StartupSound := by
  obtain ⟨hsc, hcut, hschedule, hscans⟩ := State.enterRunning_uncut levels h.uncut
  constructor <;> simp [hsc, hcut, hschedule, hscans, hheld, hcapt, State.address]
  exact haddress

/-- The reference result of a check scan has no part in the operating state. -/
theorem State.checkReference_standing (time : Nat) (c : Conversions) {s : State} (h : s.cut = none) :
    (s.checkReference time c).1.standing = s.standing := by
  unfold State.checkReference
  dsimp only
  split
  case h_1 =>
    split
    · exact State.emit_standing (s := { s with an := _ }) _ h
    · rfl
  case h_2 =>
    split
    · rfl
    · split
      · rfl
      · exact State.emit_standing (s := { s with an := _ }) _ h

theorem StartupController.configure_eq (c : StartupController) (r : SectionResult) :
    c.configure r = { c with config := (c.configure r).config, configured := (c.configure r).configured } := by
  cases r <;> rfl

theorem Move.keepsStartup {s t : State} (m : Move s t) (h : s.StartupSound) : t.StartupSound := by
  have hcut := h.uncut
  cases m with
  | emit e => exact h.of_standing (State.emit_standing e hcut)
  | writeHeard d =>
    exact h.of_standing (by simp [State.standing, State.writeHeard_sc d hcut, State.writeHeard_cut d hcut, hcut])
  | scanner an _ _ _ hnext => exact h.of_standing (by simp [State.standing, hnext])
  | checkReference time c => exact h.of_standing (State.checkReference_standing time c hcut)
  | timeUnit tu _ hschedule => exact h.of_standing (by simp [State.standing, hschedule])
  | clash => exact h.of_standing rfl
  | supply => exact h.of_standing rfl
  | configure payload => rw [StartupController.configure_eq]; exact h.of_standing rfl
  | enterRunning levels hop =>
    refine h.enterRunning levels (Bool.eq_false_iff.mpr fun hheld => ?_) (Bool.eq_false_iff.mpr fun hcapt => ?_)
      (h.address (.inl hop))
    · cases hop.symm.trans (h.heldStarts hheld)
    · cases hop.symm.trans (h.captStarts hcapt)
  | sticks => exact h.of_standing rfl
  | recovers => exact h.of_standing rfl
  | stage src => rw [State.stage_eq]; exact h.of_standing rfl
  | endBatch drops => rw [State.endBatch_eq]; exact h.of_standing rfl
  | _ => exact h.of_standing (by simp [State.standing])

/-- No move holds or ends a reset. -/
theorem Move.resetHeld {s t : State} (m : Move s t) : t.sc.resetHeld = s.sc.resetHeld := by
  have kept (b : Bool) : State.KeptByEvents fun u => u.sc.resetHeld = b :=
    ⟨by simp, by simp, by simp, by simp, by simp [State.strike]⟩
  cases m with
  | writeHeard d => exact (kept _).writeHeard d rfl
  | checkReference time c =>
    exact (kept _).checkReference time c rfl (fun _ _ hu => hu) (fun _ hu => hu) fun _ _ _ hu => hu
  | clash => rfl
  | supply => rfl
  | configure payload => rw [StartupController.configure_eq]
  | enterRunning levels =>
    exact (kept _).enterRunning levels (by simp [State.opened]) (fun _ hu => hu) fun _ _ _ _ _ hu => hu
  | sticks => rfl
  | recovers => rfl
  | stage src => rw [State.stage_eq]
  | endBatch drops => rw [State.endBatch_eq]
  | _ => simp

/-- In STARTING nothing that belongs to another operating state stands (R24, R104, R165 to R171). -/
theorem State.startupSound_iff_of_starting {s : State} (hop : s.sc.op = .starting) :
    s.StartupSound ↔ s.sc.setupSince = none ∧ s.tu.schedule = none ∧ s.an.nextScan = none ∧ s.cut = none := by
  constructor
  · rintro ⟨-, -, hwindow, hschedule, hscans, -, -, hcut⟩
    simpa [hop, hcut] using And.intro hwindow (And.intro hschedule hscans)
  · rintro ⟨hwindow, hschedule, hscans, hcut⟩
    constructor <;> simp [hop, hwindow, hschedule, hscans, hcut]

/-- The sampling of the straps leaves the operating state, and so does the restore, which lets CAPT go (R24, R167). -/
theorem State.readStraps_startup (straps : Straps) (s : State) :
    (s.readStraps straps).sc.op = s.sc.op ∧ (s.readStraps straps).sc.resetHeld = s.sc.resetHeld ∧
      (s.readStraps straps).sc.setupSince = s.sc.setupSince ∧ (s.readStraps straps).tu = s.tu ∧
      (s.readStraps straps).an.nextScan = s.an.nextScan ∧ (s.readStraps straps).cut = s.cut := by
  unfold State.readStraps
  dsimp only
  split <;> exact ⟨rfl, rfl, rfl, rfl, rfl, rfl⟩

theorem State.restore_startup (s : State) :
    s.restore.sc.op = s.sc.op ∧ s.restore.sc.resetHeld = s.sc.resetHeld ∧ s.restore.sc.captHeld = false ∧
      s.restore.sc.setupSince = s.sc.setupSince ∧ s.restore.tu = s.tu ∧ s.restore.an = s.an ∧ s.restore.cut = s.cut := by
  unfold State.restore State.cutShort
  dsimp only
  repeat' split
  all_goals exact ⟨rfl, rfl, rfl, rfl, rfl, rfl, rfl⟩

/-- STARTING ends in START-FAULT, SETUP or RUNNING with what belongs there (R167). -/
theorem State.StartupSound.leaveStarting {s : State} (h : s.StartupSound) (hop : s.sc.op = .starting)
    (hheld : s.sc.resetHeld = false) (hcapt : s.sc.captHeld = false) (levels : BitVec 12) :
    (s.leaveStarting levels).StartupSound := by
  obtain ⟨hwindow, hschedule, hscans, hcut⟩ := (State.startupSound_iff_of_starting hop).mp h
  unfold State.leaveStarting
  split
  · constructor <;> simp [hheld, hcapt, hwindow, hschedule, hscans, hcut]
  case isFalse hvalid =>
    have haddress : 1 ≤ s.address ∧ s.address ≤ 30 := by
      have := s.sc.straps.address.isLt
      unfold State.address at *
      omega
    split
    · constructor <;> simp [hheld, hcapt, hschedule, hscans, hcut, State.address]
      exact haddress
    · exact State.StartupSound.enterRunning (s := s.startReceiver) (h.of_standing rfl) levels hheld hcapt haddress

/-- In STARTING, with no reset held, the steps of R167 lead where what belongs to the operating state belongs to it. -/
theorem State.StartupSound.runStarting {s : State} (h : s.StartupSound) (hop : s.sc.op = .starting)
    (hheld : s.sc.resetHeld = false) (straps : Straps) (ending : StartingEnd) (levels : BitVec 12) :
    (s.runStarting straps ending levels).StartupSound := by
  obtain ⟨hwindow, hschedule, hscans, hcut⟩ := (State.startupSound_iff_of_starting hop).mp h
  obtain ⟨rop, rheld, rwindow, rtu, rscans, rcut⟩ := State.readStraps_startup straps s
  have hread : (s.readStraps straps).StartupSound :=
    (State.startupSound_iff_of_starting (rop.trans hop)).mpr
      ⟨rwindow.trans hwindow, rtu ▸ hschedule, rscans.trans hscans, rcut.trans hcut⟩
  obtain ⟨eop, eheld, ecapt, ewindow, etu, ean, ecut⟩ := State.restore_startup (s.readStraps straps)
  have hrestore : (s.readStraps straps).restore.StartupSound :=
    (State.startupSound_iff_of_starting (eop.trans (rop.trans hop))).mpr
      ⟨ewindow.trans (rwindow.trans hwindow), etu ▸ rtu ▸ hschedule, ean ▸ rscans.trans hscans,
        ecut.trans (rcut.trans hcut)⟩
  cases ending with
  | completes => exact hrestore.leaveStarting (eop.trans (rop.trans hop)) (eheld.trans (rheld.trans hheld)) ecapt levels
  | struckBeforeRestore => exact hread
  | struckAfterRestore => exact hrestore

/-- After a reset nothing that belongs to an operating state is left. -/
theorem State.beginPowerOn_startupSound (s : State) : s.beginPowerOn.StartupSound :=
  (State.startupSound_iff_of_starting rfl).mpr ⟨rfl, rfl, rfl, rfl⟩

theorem State.beginRetaining_startupSound (cause : ResetCause) (inside : Bool) (s : State) :
    (s.beginRetaining cause inside).StartupSound :=
  (State.startupSound_iff_of_starting rfl).mpr ⟨rfl, rfl, rfl, rfl⟩

theorem State.StartupSound.unheld {s : State} (h : s.StartupSound) : s.unheld.StartupSound :=
  ⟨by simp [State.unheld], h.captStarts, h.window, h.schedule, h.scans, h.address, h.lossReported, h.uncut⟩

/-- A course keeps what belongs to the operating state: the moves do while no reset strikes, and after a reset nothing is
left of it. -/
theorem Course.keepsStartup {s t : State} (course : Course s t) (h : s.StartupSound) : t.StartupSound := by
  cases course with
  | moves run => exact run.keeps Move.keepsStartup h
  | starting straps ending levels held watched hop =>
    refine (watched.keeps Move.keepsStartup h.unheld).runStarting (hop (h.heldStarts held)) ?_ straps ending levels
    exact watched.keeps (P := fun u => u.sc.resetHeld = false) (fun m hu => m.resetHeld.trans hu) rfl
  | powerOn => exact s.beginPowerOn_startupSound
  | resetBetween => exact State.beginRetaining_startupSound _ _ _
  | resetWithin => exact State.beginRetaining_startupSound _ _ _

theorem stepKeepsStartup {s t : State} (h : s.StartupSound) (hstep : step s = .next t) : t.StartupSound := by
  obtain ⟨rest, hcourse⟩ := step_course hstep
  exact hcourse.keepsStartup (h.of_standing rfl)

/-- Settles O53: the three invariants, each kept by every move, by STARTING and by the resets. -/
theorem stepKeepsConfigurationStartupAndTables : Obligations.StepKeepsConfigurationStartupAndTables :=
  ⟨fun _ _ => stepKeepsConfiguration, fun _ _ => stepKeepsStartup, fun _ _ => stepKeepsTables⟩

end Sys2Proof.Machine
end

section
/-!
The condition set follows its owners (R180). The operations on the capture record leave the Line Controller as it is, or
end the TRIGGER item (R28, R136); neither makes a line stuck or recovers it.
-/

namespace Sys2Proof.Machine

/-! ## The TRIGGER item in the operations on the capture record -/

/-- The Line Controller and the pending TRIGGER frame stay, or the frame is withdrawn (R28). -/
def State.TriggerKept (s t : State) : Prop :=
  (t.lc = s.lc ∧ t.cc.pendingTrigger = s.cc.pendingTrigger) ∨
    (s.cc.pendingTrigger.isSome = true ∧ t.lc = s.lc.endItem .trigger ∧ t.cc.pendingTrigger = none)

theorem State.TriggerKept.refl (s : State) : s.TriggerKept s := .inl ⟨rfl, rfl⟩

theorem State.TriggerKept.trans {s t u : State} (h : s.TriggerKept t) (h' : t.TriggerKept u) : s.TriggerKept u := by
  rcases h with ⟨hlc, hpending⟩ | ⟨hsome, hlc, hpending⟩ <;> rcases h' with ⟨hlc', hpending'⟩ | ⟨hsome', hlc', hpending'⟩
  · exact .inl ⟨hlc'.trans hlc, hpending'.trans hpending⟩
  · exact .inr ⟨hpending ▸ hsome', hlc ▸ hlc', hpending'⟩
  · exact .inr ⟨hsome, hlc'.trans hlc, hpending'.trans hpending⟩
  · simp [hpending] at hsome'

theorem State.withdrawTrigger_triggerKept (s : State) : s.TriggerKept s.withdrawTrigger := by
  unfold State.withdrawTrigger
  split
  case h_1 => exact .refl s
  case h_2 t h => exact .inr ⟨by simp [h], rfl, rfl⟩

theorem State.freeze_triggerKept (reason : FreezeReason) (s : State) : s.TriggerKept (s.freeze reason) := by
  unfold State.freeze
  dsimp only
  split <;> exact .inl ⟨rfl, rfl⟩

theorem State.countPost_triggerKept (s : State) : s.TriggerKept s.countPost := by
  unfold State.countPost
  dsimp only
  split
  · split
    · exact .trans (.inl ⟨rfl, rfl⟩) (State.freeze_triggerKept _ _)
    · exact .inl ⟨rfl, rfl⟩
  · exact .refl s

theorem State.loseCapture_triggerKept (s : State) : s.TriggerKept s.loseCapture := by
  unfold State.loseCapture
  split
  · exact .trans (.inl ⟨rfl, rfl⟩) (State.withdrawTrigger_triggerKept s.clearRecord)
  · exact .refl s

/-- A write keeps the TRIGGER item but where a capture is lost (R44). -/
theorem State.write_triggerKept (d : Draft) (s : State) : s.TriggerKept (s.write d).1 := by
  unfold State.write
  repeat' split
  · exact .refl s
  · exact .inl ⟨rfl, rfl⟩
  · exact State.loseCapture_triggerKept { s with hr := s.hr.emptied }
  · exact State.countPost_triggerKept { s with hr := s.hr.store d }

theorem State.enterPost_triggerKept (z : TimedTag) (cause : Cause) (s : State) :
    s.TriggerKept (s.enterPost z cause) := by
  have hwrite := State.write_triggerKept (s.captureDraft .triggerMark z (.marked cause)) s
  unfold State.enterPost
  split <;> rename_i heq <;> rw [heq] at hwrite <;> exact hwrite

theorem State.compare_triggerKept (z : TimedTag) (s : State) : s.TriggerKept (s.compare z) := by
  have hseen (u : State) (a b c : Bool) : u.TriggerKept (u.writeSeen a b z c) := by
    unfold State.writeSeen
    split
    · exact State.write_triggerKept _ u
    · exact .refl u
  unfold State.compare
  dsimp only
  split
  · exact .refl s
  · split
    · exact .refl s
    · split
      · have hset (r : CaptureRecord) : s.TriggerKept (s.setRecord r) := .inl ⟨rfl, rfl⟩
        exact ((hset _).trans (State.withdrawTrigger_triggerKept _)).trans (hseen _ _ _ _)
      · exact hseen (s.setRecord _) _ _ _

theorem State.release_triggerKept (reason : ReleaseReason) (s : State) : s.TriggerKept (s.release reason) := by
  unfold State.release
  dsimp only
  split
  case h_4 =>
    exact .trans (State.withdrawTrigger_triggerKept s)
      (State.write_triggerKept _ s.withdrawTrigger.clearRecord)
  all_goals exact .refl s

/-! ## A stuck line -/

theorem LineController.endItem_stuck (lc : LineController) (src : Source) :
    (lc.endItem src).line = .stuck ↔ lc.line = .stuck := by
  unfold LineController.endItem
  dsimp only
  split <;> simp_all
  all_goals split <;> simp_all

theorem State.TriggerKept.stuck {s t : State} (h : s.TriggerKept t) : t.lc.line = .stuck ↔ s.lc.line = .stuck := by
  rcases h with ⟨hlc, -⟩ | ⟨-, hlc, -⟩ <;> rw [hlc]
  exact s.lc.endItem_stuck .trigger

theorem State.originate_stuck (cause : Cause) (time : Nat) (s : State) :
    (s.originate cause time).lc.line = .stuck ↔ s.lc.line = .stuck :=
  (State.enterPost_triggerKept _ cause { s with cc := { s.cc with serial := cyclicNext s.cc.serial } }).stuck

/-- The handling of events makes no line stuck and recovers none. -/
theorem State.stuck_keptByEvents (p : Prop) : State.KeptByEvents fun s => s.lc.line = .stuck ↔ p where
  write d h := (State.write_triggerKept d _).stuck.trans h
  announce e q h := by simpa using h
  request cause time _ h := by
    unfold State.requestTrigger
    split
    case h_2 => exact (State.originate_stuck _ _ _).trans h
    all_goals exact h
  cut _ h := h
  strike h := h

theorem State.restingLine_ne_stuck (s : State) : s.restingLine ≠ .stuck := by
  unfold State.restingLine
  split <;> simp

theorem State.endReply_stuck (s : State) : s.endReply.lc.line = .stuck ↔ s.lc.line = .stuck := by
  unfold State.endReply
  split
  · rfl
  · exact s.lc.endItem_stuck .reply

theorem LineMove.stuck {s : State} {lc : LineController} (m : LineMove s lc) : lc.line = .stuck ↔ s.lc.line = .stuck := by
  have hresting := s.restingLine_ne_stuck
  cases m with
  | begins =>
    unfold State.activityBegins
    dsimp only
    split <;> simp_all
  | breaks h => simpa [h, State.breakReception] using hresting
  | accepts h => simpa [h, State.acceptReception] using hresting
  | stamps time h => simp [h]
  | sends now h => simp [h]
  | inserts time h => simp [h]
  | endsBackoff =>
    dsimp only
    split <;> simp_all
  | completes h => simp [h]
  | collides k h => simp [h, State.collide]
  | _ => rfl

/-- A staging makes no line stuck. -/
theorem State.stage_stuck (src : Source) {s : State} (h : s.lc.line = .quiet) : (s.stage src).lc.line ≠ .stuck := by
  have hform : (if src = .event then s.formBatch else s).lc.line = .quiet := by
    split
    · rw [State.formBatch_eq]; exact h
    · exact h
  unfold State.stage
  dsimp only
  split
  · simp [hform]
  · simp

/-! ## The condition set -/

/-- What the condition set has to do with at the Start-up Controller (R167, R180). -/
def StartupController.alarms (c : StartupController) := (c.conditions, c.supply, c.straps, c.op, c.resetHeld)

/-- What leaves the condition set and what it follows keeps it with its owners. -/
theorem State.ConditionsSound.of_eq {s t : State} (h : s.ConditionsSound) (hsc : t.sc.alarms = s.sc.alarms := by simp)
    (href : t.an.reference = s.an.reference := by simp)
    (hline : t.lc.line = .stuck ↔ s.lc.line = .stuck := by simp)
    (hclash : t.pm.clashSince = s.pm.clashSince := by simp) : t.ConditionsSound := by
  obtain ⟨hanalog, hstuck, hwindow, hsupply, haddress, hfault, hworking, hheld⟩ := h
  simp only [StartupController.alarms, Prod.mk.injEq] at hsc
  obtain ⟨hset, hstate, hstraps, hop, hreset⟩ := hsc
  constructor <;> simp only [State.address, hset, hstate, hstraps, hop, hreset, href, hline, hclash] <;> assumption

/-- One member of the set is put to what its owner's state says. -/
theorem Conditions.put_eq (c : Conditions) (v : Bool) :
    c.put .analogFault v = { c with analogFault := v } ∧ c.put .lineStuck v = { c with lineStuck := v } ∧
      c.put .addressClash v = { c with addressClash := v } ∧ c.put .supplyWarning v = { c with supplyWarning := v } :=
  ⟨rfl, rfl, rfl, rfl⟩

/-- Where no reset strikes, the handling of an event leaves the condition set with its owners. -/
theorem State.ConditionsSound.emit {s : State} (h : s.ConditionsSound) (hcut : s.cut = none) (e : LocalEvent) :
    (s.emit e).ConditionsSound :=
  h.of_eq (congrArg _ (State.emit_sc e hcut)) (by simp) ((State.stuck_keptByEvents _).emit e Iff.rfl) (by simp)

theorem State.ConditionsSound.checkReference {s : State} (h : s.ConditionsSound) (hcut : s.cut = none) (time : Nat)
    (c : Conversions) : (s.checkReference time c).1.ConditionsSound := by
  have hput (u : State) (e : LocalEvent) (x : Reference) (v : Bool) (hv : v = true ↔ x ≠ .healthy)
      (hsc : u.sc = s.sc) (hx : u.an.reference = x) (hline : u.lc.line = .stuck ↔ s.lc.line = .stuck)
      (hclash : u.pm = s.pm) (hu : u.cut = none) : ((u.emit e).setCondition .analogFault v).ConditionsSound := by
    have hstuck := (State.stuck_keptByEvents _).emit e hline
    obtain ⟨hanalog, hline, hwindow, hsupply, haddress, hfault, hworking, hheld⟩ := h
    constructor <;> simp only [State.setCondition, State.emit_sc e hu, hsc, (Conditions.put_eq _ _).1, State.emit_an, hx,
      State.emit_pm, hclash, hstuck, State.address] <;> assumption
  unfold State.checkReference
  dsimp only
  split
  case h_1 hhealthy =>
    split
    · exact hput { s with an := _ } _ (.fault 0) true (by simp) rfl rfl Iff.rfl rfl hcut
    · exact h
  case h_2 passes hfault =>
    have hstays (n : Nat) : State.ConditionsSound { s with an := { s.an with reference := .fault n } } := by
      obtain ⟨hanalog, hline, hwindow, hsupply, haddress, hstart, hworking, hheld⟩ := h
      refine ⟨?_, hline, hwindow, hsupply, haddress, hstart, hworking, hheld⟩
      simpa [hfault] using hanalog
    split
    · exact hstays 0
    · split
      · exact hstays _
      · exact hput { s with an := _ } _ .healthy false (by simp) rfl rfl Iff.rfl rfl hcut

/-- Entry to RUNNING without a start-up fault leaves the condition set with its owners. -/
theorem State.ConditionsSound.enterRunning {s : State} (h : s.ConditionsSound) (hcut : s.cut = none)
    (hfault : s.sc.conditions.startFault = false) (levels : BitVec 12) : (s.enterRunning levels).ConditionsSound := by
  have kept : State.KeptByEvents fun u =>
      (u.lc.line = .stuck ↔ s.lc.line = .stuck) ∧ u.an.reference = s.an.reference ∧ u.pm.clashSince = s.pm.clashSince := by
    have hstuck := State.stuck_keptByEvents (s.lc.line = .stuck)
    exact ⟨fun d h => ⟨hstuck.write d h.1, by simpa using h.2⟩, fun e q h => ⟨hstuck.announce e q h.1, by simpa using h.2⟩,
      fun cause time hop h => ⟨hstuck.request cause time hop h.1, by simpa using h.2⟩, fun _ h => h, fun h => h⟩
  obtain ⟨hline, href, hclash⟩ := kept.enterRunning (s := s) levels (by simp [State.opened]) (fun _ hu => hu)
    fun _ _ _ _ _ hu => hu
  have hsc := (State.enterRunning_uncut levels hcut).1
  obtain ⟨hanalog, hstuck, hwindow, hsupply, haddress, -, -, hheld⟩ := h
  constructor <;> simp only [State.address, hsc, href, hline, hclash]
  case startFault => simp
  case working => exact fun _ => hfault
  all_goals assumption

/-- Where no reset strikes, every move leaves the condition set with its owners. -/
theorem Move.keepsConditions {s t : State} (m : Move s t) (hcut : s.cut = none) (h : s.ConditionsSound) :
    t.ConditionsSound := by
  obtain ⟨hanalog, hline, hwindow, hsupply, haddress, hfault, hworking, hheld⟩ := id h
  cases m with
  | emit e => exact h.emit hcut e
  | writeHeard d =>
    exact h.of_eq (congrArg _ (State.writeHeard_sc d hcut)) (by simp) ((State.stuck_keptByEvents _).writeHeard d Iff.rfl)
  | write d => exact h.of_eq (hline := (State.write_triggerKept d s).stuck)
  | originate cause time => exact h.of_eq (hline := State.originate_stuck cause time s)
  | enterPost z cause => exact h.of_eq (hline := (State.enterPost_triggerKept z cause s).stuck)
  | compare z => exact h.of_eq (hline := (State.compare_triggerKept z s).stuck)
  | release reason => exact h.of_eq (hline := (State.release_triggerKept reason s).stuck)
  | scanner an _ _ _ _ href => exact h.of_eq rfl href
  | checkReference time c => exact h.checkReference hcut time c
  | clash since => exact ⟨hanalog, hline, Iff.rfl, hsupply, haddress, hfault, hworking, hheld⟩
  | supply x =>
    exact ⟨hanalog, hline, hwindow, by simp [State.setCondition, Conditions.put], haddress, hfault, hworking, hheld⟩
  | restoreTimer timer' hwarning =>
    exact ⟨hanalog, hline, hwindow, by simpa [hwarning] using hsupply, haddress, hfault, hworking, hheld⟩
  | configure payload => rw [StartupController.configure_eq]; exact h.of_eq rfl
  | enterRunning levels hop => exact h.enterRunning hcut (hworking (.inl hop)) levels
  | line lm => exact h.of_eq (hline := lm.stuck)
  | sticks =>
    exact ⟨hanalog, by simp [State.setCondition, Conditions.put], hwindow, hsupply, haddress, hfault, hworking, hheld⟩
  | recovers =>
    have hresting : s.restingLine ≠ .stuck := State.restingLine_ne_stuck s
    exact ⟨hanalog, by simpa [State.setCondition, Conditions.put] using hresting, hwindow, hsupply, haddress, hfault,
      hworking, hheld⟩
  | stage src _ hquiet =>
    refine h.of_eq (hsc := ?_) (href := ?_) (hclash := ?_)
      (hline := iff_of_false (State.stage_stuck src hquiet) (by simp [hquiet]))
    all_goals rw [State.stage_eq]
  | endBatch drops => rw [State.endBatch_eq]; exact h.of_eq
  | endReply => exact h.of_eq (hline := s.endReply_stuck)
  | placeReply kind payload => exact h.of_eq (hline := s.endReply_stuck)
  | _ => exact h.of_eq

theorem State.checkReference_startFault (time : Nat) (c : Conversions) (s : State) :
    (s.checkReference time c).1.sc.conditions.startFault = s.sc.conditions.startFault := by
  unfold State.checkReference
  dsimp only
  repeat' split
  all_goals simp [State.setCondition, Conditions.put]

/-- No move sets or clears the start-up fault. -/
theorem Move.startFault {s t : State} (m : Move s t) : t.sc.conditions.startFault = s.sc.conditions.startFault := by
  have kept (b : Bool) : State.KeptByEvents fun u => u.sc.conditions.startFault = b :=
    ⟨by simp, by simp, by simp, by simp, by simp [State.strike]⟩
  cases m with
  | writeHeard d => exact (kept _).writeHeard d rfl
  | checkReference time c => exact State.checkReference_startFault time c s
  | clash => rfl
  | supply => rfl
  | configure payload => rw [StartupController.configure_eq]
  | enterRunning levels =>
    exact (kept _).enterRunning levels (by simp [State.opened]) (fun _ hu => hu) fun _ _ _ _ _ hu => hu
  | sticks => rfl
  | recovers => rfl
  | stage src => rw [State.stage_eq]
  | endBatch drops => rw [State.endBatch_eq]
  | _ => simp

/-- A set that agrees with an empty one on its owners: after a reset, with the start-up fault of the straps (R167). -/
theorem State.ConditionsSound.readStraps {s : State} (h : s.ConditionsSound) (hop : s.sc.op = .starting)
    (hheld : s.sc.resetHeld = false) (hfault : s.sc.conditions.startFault = false) (straps : Straps) :
    (s.readStraps straps).ConditionsSound ∧
      ((s.readStraps straps).sc.conditions.startFault = true ↔
        (s.readStraps straps).address = 0 ∨ (s.readStraps straps).address = 31) := by
  obtain ⟨hanalog, hline, hwindow, hsupply, -, -, -, -⟩ := h
  unfold State.readStraps
  dsimp only
  split
  case isTrue hrange =>
    exact ⟨⟨hanalog, hline, hwindow, hsupply, fun _ => hrange, fun _ => rfl, by simp [State.setCondition, hop],
      by simp [State.setCondition, hheld]⟩, iff_of_true rfl hrange⟩
  case isFalse hrange =>
    exact ⟨⟨hanalog, hline, hwindow, hsupply, by simp [hfault], by simp [hop], by simp [hop], by simp [hheld]⟩,
      iff_of_false (by simp [hfault]) hrange⟩

theorem State.restore_alarms (s : State) : s.restore.sc.alarms = s.sc.alarms ∧ s.restore.an = s.an ∧
    s.restore.lc = s.lc ∧ s.restore.pm = s.pm := by
  unfold State.restore State.cutShort
  dsimp only
  repeat' split
  all_goals exact ⟨rfl, rfl, rfl, rfl⟩

theorem State.ConditionsSound.restore {s : State} (h : s.ConditionsSound) : s.restore.ConditionsSound := by
  obtain ⟨hsc, han, hlc, hpm⟩ := s.restore_alarms
  exact h.of_eq hsc (by rw [han]) (by rw [hlc]) (by rw [hpm])

/-- STARTING ends with a start-up fault exactly where it ends in START-FAULT (R167). -/
theorem State.ConditionsSound.leaveStarting {s : State} (h : s.ConditionsSound) (hheld : s.sc.resetHeld = false)
    (hcut : s.cut = none) (hfault : s.sc.conditions.startFault = true ↔ s.address = 0 ∨ s.address = 31)
    (levels : BitVec 12) : (s.leaveStarting levels).ConditionsSound := by
  obtain ⟨hanalog, hline, hwindow, hsupply, haddress, -, -, -⟩ := id h
  unfold State.leaveStarting
  split
  case isTrue hrange =>
    exact ⟨hanalog, hline, hwindow, hsupply, haddress, fun _ => hfault.mpr hrange, by simp, by simp [hheld]⟩
  case isFalse hrange =>
    have hclear : s.sc.conditions.startFault = false := Bool.eq_false_iff.mpr (mt hfault.mp hrange)
    split
    · exact ⟨hanalog, hline, hwindow, hsupply, haddress, by simp, fun _ => hclear, by simp [hheld]⟩
    · exact State.ConditionsSound.enterRunning (s := s.startReceiver) (h.of_eq (hline := Iff.rfl)) hcut hclear levels

theorem State.ConditionsSound.runStarting {s : State} (h : s.ConditionsSound) (hop : s.sc.op = .starting)
    (hheld : s.sc.resetHeld = false) (hcut : s.cut = none) (hfault : s.sc.conditions.startFault = false)
    (straps : Straps) (ending : StartingEnd) (levels : BitVec 12) :
    (s.runStarting straps ending levels).ConditionsSound := by
  obtain ⟨hread, hstart⟩ := h.readStraps hop hheld hfault straps
  obtain ⟨-, rheld, -, -, -, rcut⟩ := State.readStraps_startup straps s
  obtain ⟨-, eheld, -, -, -, -, ecut⟩ := State.restore_startup (s.readStraps straps)
  cases ending with
  | struckBeforeRestore => exact hread
  | struckAfterRestore => exact hread.restore
  | completes =>
    refine hread.restore.leaveStarting (eheld.trans (rheld.trans hheld)) (ecut.trans (rcut.trans hcut)) ?_ levels
    have halarms := (State.restore_alarms (s.readStraps straps)).1
    simp only [StartupController.alarms, Prod.mk.injEq] at halarms
    obtain ⟨hset, -, hstraps, -, -⟩ := halarms
    simpa only [State.address, hset, hstraps] using hstart

/-- After a reset the condition set is empty, and so says every owner (R180). -/
theorem State.beginRetaining_conditionsSound (cause : ResetCause) (inside : Bool) (s : State) :
    (s.beginRetaining cause inside).ConditionsSound := by
  constructor <;> simp [State.beginRetaining, State.resetBlocks, Conditions.empty, Scanner.initial,
    LineController.initial, PeerMonitor.initial]

theorem State.beginPowerOn_conditionsSound (s : State) : s.beginPowerOn.ConditionsSound := by
  constructor <;> simp [State.beginPowerOn, State.discardHistory, State.resetBlocks, Conditions.empty, Scanner.initial,
    LineController.initial, PeerMonitor.initial]

/-- A course leaves the condition set with its owners. -/
theorem Course.keepsConditions {s t : State} (course : Course s t) (hstart : s.StartupSound) (h : s.ConditionsSound) :
    t.ConditionsSound := by
  have hmove {u v : State} (m : Move u v) (hu : u.StartupSound ∧ u.ConditionsSound) :
      v.StartupSound ∧ v.ConditionsSound := ⟨m.keepsStartup hu.1, m.keepsConditions hu.1.uncut hu.2⟩
  cases course with
  | moves run => exact (run.keeps hmove ⟨hstart, h⟩).2
  | starting straps ending levels held watched hop =>
    have hunheld : s.unheld.ConditionsSound :=
      ⟨h.analog, h.line, h.clash, h.supply, h.address, h.startFault, h.working, by simp [State.unheld]⟩
    obtain ⟨hw, hconditions⟩ := watched.keeps hmove ⟨hstart.unheld, hunheld⟩
    have hheld := watched.keeps (P := fun u => u.sc.resetHeld = false) (fun m hu => m.resetHeld.trans hu) rfl
    have hfault := watched.keeps (P := fun u => u.sc.conditions.startFault = false) (fun m hu => m.startFault.trans hu)
      (h.held held)
    exact hconditions.runStarting (hop (hstart.heldStarts held)) hheld hw.uncut hfault straps ending levels
  | powerOn => exact s.beginPowerOn_conditionsSound
  | resetBetween => exact State.beginRetaining_conditionsSound _ _ _
  | resetWithin => exact State.beginRetaining_conditionsSound _ _ _

/-- Settles O36: every move, STARTING and the resets keep each member with its owner; FLT is the disjunction. -/
theorem stepKeepsConditionsWithTheirOwners : Obligations.StepKeepsConditionsWithTheirOwners := by
  constructor
  · intro s t h hstart hstep
    obtain ⟨rest, hcourse⟩ := step_course hstep
    exact hcourse.keepsConditions (hstart.of_standing rfl) (h.of_eq rfl rfl Iff.rfl rfl)
  · intro s
    simp [State.flt, Conditions.any, or_assoc]

end Sys2Proof.Machine
end

section
/-!
The Line Controller stays sound (R126 to R136): its counts, its generator, its back-off, and the item that stands behind
a frame staged or being sent.
-/

namespace Sys2Proof.Machine

/-! ## The back-off generator (R133) -/

/-- The content halved, plus 16384 times the feedback bit (R133). -/
theorem backoffStep_eq (v : Nat) : backoffStep v = v / 2 + 16384 *
    (if (v % 2 = 1 ∧ v / 2 % 2 = 0) ∨ (v % 2 = 0 ∧ v / 2 % 2 = 1) then 1 else 0) := by
  unfold backoffStep
  rcases Nat.mod_two_eq_zero_or_one v with h1 | h1 <;> rcases Nat.mod_two_eq_zero_or_one (v / 2) with h2 | h2 <;>
    simp [h1, h2]

/-- The generator never holds 0 and never passes 32767 (R133). -/
theorem backoffStep_range {v : Nat} (h : 1 ≤ v ∧ v ≤ 32767) : 1 ≤ backoffStep v ∧ backoffStep v ≤ 32767 := by
  rw [backoffStep_eq]
  split <;> omega

theorem ditherStep_injective {u v : Nat} (hu : u ≤ 32767) (hv : v ≤ 32767) (h : ditherStep u = ditherStep v) : u = v := by
  rw [ditherStep_eq, ditherStep_eq] at h
  split at h <;> split at h <;> omega

theorem backoffStep_injective {u v : Nat} (hu : u ≤ 32767) (hv : v ≤ 32767) (h : backoffStep u = backoffStep v) :
    u = v := by
  rw [backoffStep_eq, backoffStep_eq] at h
  split at h <;> split at h <;> omega

/-- Settles O28: both steps by arithmetic on their equations, the draws of section 4.9 by computation. -/
theorem generatorsStayInTheirRanges : Obligations.GeneratorsStayInTheirRanges :=
  ⟨⟨fun v h1 h2 => ⟨ditherStep_eq v, ditherStep_range ⟨h1, h2⟩⟩, fun _ _ => ditherStep_injective, by decide⟩,
    fun v h1 h2 => ⟨backoffStep_eq v, backoffStep_range ⟨h1, h2⟩⟩, fun _ _ => backoffStep_injective⟩

/-! ## Attempt counts and items -/

theorem Attempts.get_put (a : Attempts) (src src' : Source) (n : Nat) :
    (a.put src n).get src' = if src' = src then n else a.get src' := by
  cases src <;> cases src' <;> rfl

theorem Attempts.get_put_lt {a : Attempts} (h : ∀ src, a.get src < collisionLimit) {n : Nat} (hn : n < collisionLimit)
    (src src' : Source) : (a.put src n).get src' < collisionLimit := by
  rw [Attempts.get_put]
  split
  · exact hn
  · exact h src'

/-- The sender time leaves the source (R131). -/
theorem Outgoing.stamp_source (o : Outgoing) (time : Nat) : (o.stamp time).source = o.source := by
  unfold Outgoing.stamp
  split <;> simp_all

/-- The line in BACKOFF has its back-off running (R134, R140). -/
theorem State.restingLine_backoff {s : State} (h : s.restingLine = .backoff) : s.lc.backoffEnd.isSome = true := by
  unfold State.restingLine at h
  split at h
  · assumption
  · cases h

theorem State.restingLine_idle (s : State) : s.restingLine = .backoff ∨ s.restingLine = .quiet := by
  unfold State.restingLine
  split <;> simp

/-- A Line Controller whose line holds no frame needs its counts, its generator and its back-off in range alone. -/
theorem State.LineSound.of_idle {t : State} (hidle : t.lc.Idle) (hgenerator : 1 ≤ t.lc.generator ∧ t.lc.generator ≤ 32767)
    (hgood : t.lc.good ≤ top16) (hbroken : t.lc.broken ≤ top16) (hcollisions : t.lc.collisions ≤ top16)
    (habandoned : t.lc.abandoned ≤ top16) (hattempts : ∀ src, t.lc.attempts.get src < collisionLimit)
    (hbackoff : t.lc.line = .backoff → t.lc.backoffEnd.isSome = true) : t.LineSound where
  generatorRange := hgenerator
  goodMax := hgood
  brokenMax := hbroken
  collisionsMax := hcollisions
  abandonedMax := habandoned
  attemptsMax := hattempts
  backoffRuns := hbackoff
  stagedItem since out h := absurd h (hidle.1 since out)
  sentItem since out w h := absurd h (hidle.2 since out w)

/-- What leaves the Line Controller, and every item that a source holds, keeps it sound. -/
theorem State.LineSound.mono {s t : State} (h : s.LineSound) (hlc : t.lc = s.lc)
    (hitems : ∀ src, s.holdsItem src = true → t.holdsItem src = true) : t.LineSound := by
  obtain ⟨hgenerator, hgood, hbroken, hcollisions, habandoned, hattempts, hbackoff, hstaged, hsent⟩ := h
  constructor <;> rw [hlc]
  case stagedItem => exact fun since out e => ⟨(hstaged since out e).1, hitems _ (hstaged since out e).2⟩
  case sentItem => exact fun since out w e => ⟨(hsent since out w e).1, fun hw => hitems _ ((hsent since out w e).2 hw)⟩
  all_goals assumption

/-- What leaves the Line Controller and the blocks that hold items keeps it sound. -/
theorem State.LineSound.of_eq {s t : State} (h : s.LineSound) (hlc : t.lc = s.lc := by simp)
    (htrigger : t.cc.pendingTrigger = s.cc.pendingTrigger := by simp) (hreply : t.rh.slot = s.rh.slot := by simp)
    (hbeacon : t.tu.beaconPending = s.tu.beaconPending := by simp) (hevent : t.er = s.er := by simp) : t.LineSound := by
  refine h.mono hlc fun src hsrc => ?_
  rw [← hsrc]
  cases src <;> simp only [State.holdsItem, htrigger, hreply, hbeacon, hevent]

/-- What an idle Line Controller's sources do leaves it sound (R28, R94, R105, R149). -/
theorem State.LineSound.of_idle_eq {s t : State} (h : s.LineSound) (hidle : s.lc.Idle) (hlc : t.lc = s.lc) :
    t.LineSound :=
  .of_idle (hlc ▸ hidle) (hlc ▸ h.generatorRange) (hlc ▸ h.goodMax) (hlc ▸ h.brokenMax) (hlc ▸ h.collisionsMax)
    (hlc ▸ h.abandonedMax) (hlc ▸ h.attemptsMax) (hlc ▸ h.backoffRuns)

/-! ## The end of an item at its source (R136) -/

/-- A frame that stays staged is another source's. -/
theorem LineController.endItem_staged {lc : LineController} {src : Source} {since : Nat} {out : Outgoing}
    (h : (lc.endItem src).line = .staged since out) : lc.line = .staged since out ∧ out.source ≠ src := by
  cases hline : lc.line with
  | staged since' out' =>
    simp only [LineController.endItem, hline] at h
    split at h
    · cases h
    · cases h
      exact ⟨rfl, by assumption⟩
  | transmitting since' out' w' =>
    cases w' <;> simp only [LineController.endItem, hline] at h
    · split at h <;> cases h
    · cases h
  | _ => simp [LineController.endItem, hline] at h

/-- A frame that goes on with its report due is another source's. -/
theorem LineController.endItem_transmitting {lc : LineController} {src : Source} {since : Nat} {out : Outgoing}
    {w : Option Nat} (h : (lc.endItem src).line = .transmitting since out w) :
    ∃ w', lc.line = .transmitting since out w' ∧ (w = none → w' = none ∧ out.source ≠ src) := by
  cases hline : lc.line with
  | staged since' out' =>
    simp only [LineController.endItem, hline] at h
    split at h <;> cases h
  | transmitting since' out' w' =>
    cases w' <;> simp only [LineController.endItem, hline] at h
    · split at h <;> cases h
      · exact ⟨none, rfl, by simp⟩
      · exact ⟨none, rfl, fun _ => ⟨rfl, by assumption⟩⟩
    · cases h
      exact ⟨_, rfl, by simp⟩
  | _ => simp [LineController.endItem, hline] at h

theorem LineController.endItem_backoff {lc : LineController} {src : Source} (h : (lc.endItem src).line = .backoff) :
    lc.line = .backoff := by
  cases hline : lc.line with
  | backoff => rfl
  | staged since' out' =>
    simp only [LineController.endItem, hline] at h
    split at h <;> cases h
  | transmitting since' out' w' =>
    cases w' <;> simp only [LineController.endItem, hline] at h
    · split at h <;> cases h
    · cases h
  | _ => simp [LineController.endItem, hline] at h

/-- The end of an item at its source keeps the Line Controller sound, whatever that source then holds. -/
theorem State.LineSound.endItem {s t : State} (h : s.LineSound) (src : Source) (hlc : t.lc = s.lc.endItem src)
    (hitems : ∀ src', src' ≠ src → s.holdsItem src' = true → t.holdsItem src' = true) : t.LineSound := by
  obtain ⟨hgenerator, hgood, hbroken, hcollisions, habandoned, hattempts, hbackoff, hstaged, hsent⟩ := h
  constructor <;> rw [hlc]
  case attemptsMax => exact Attempts.get_put_lt hattempts (by decide) src
  case backoffRuns => exact fun e => hbackoff (LineController.endItem_backoff e)
  case stagedItem =>
    intro since out e
    obtain ⟨hline, hsrc⟩ := LineController.endItem_staged e
    exact ⟨(hstaged since out hline).1, hitems _ hsrc (hstaged since out hline).2⟩
  case sentItem =>
    intro since out w e
    obtain ⟨w', hline, hreport⟩ := LineController.endItem_transmitting e
    refine ⟨(hsent since out w' hline).1, fun hw => ?_⟩
    obtain ⟨hw', hsrc⟩ := hreport hw
    exact hitems _ hsrc ((hsent since out w' hline).2 hw')
  all_goals assumption

/-- A fresh count keeps the Line Controller sound (R136). -/
theorem State.LineSound.putAttempts {s : State} (h : s.LineSound) (src : Source) {n : Nat} (hn : n < collisionLimit) :
    State.LineSound { s with lc := { s.lc with attempts := s.lc.attempts.put src n } } :=
  ⟨h.generatorRange, h.goodMax, h.brokenMax, h.collisionsMax, h.abandonedMax, Attempts.get_put_lt h.attemptsMax hn src,
    h.backoffRuns, h.stagedItem, h.sentItem⟩

theorem State.TriggerKept.lineSound {s t : State} (h : s.TriggerKept t) (hs : s.LineSound)
    (hreply : t.rh.slot = s.rh.slot := by simp) (hbeacon : t.tu.beaconPending = s.tu.beaconPending := by simp)
    (hevent : t.er = s.er := by simp) : t.LineSound := by
  rcases h with ⟨hlc, htrigger⟩ | ⟨-, hlc, -⟩
  · exact hs.of_eq hlc htrigger hreply hbeacon hevent
  · refine hs.endItem .trigger hlc fun src hsrc hold => ?_
    rw [← hold]
    cases src <;> simp_all [State.holdsItem]

/-! ## The handling of events -/

/-- An announcement leaves every source with an item it holds (R87). -/
theorem State.announceStep_holdsItem (e : LocalEvent) (ownSeq : Option Nat) {s : State} {src : Source}
    (h : s.holdsItem src = true) : (s.announceStep e ownSeq).holdsItem src = true := by
  cases src with
  | event =>
    unfold State.announceStep
    split
    · split
      · simp [State.holdsItem]
      · simp [State.holdsItem, satAdd, top8]
    · exact h
  | _ => simpa [State.holdsItem] using h

/-- Origination: the mark, the pending frame and its fresh count (R26). -/
theorem State.LineSound.originate {s : State} (h : s.LineSound) (cause : Cause) (time : Nat) :
    (s.originate cause time).LineSound := by
  have hserial : State.LineSound { s with cc := { s.cc with serial := cyclicNext s.cc.serial } } :=
    h.of_eq rfl rfl rfl rfl rfl
  have hpost := (State.enterPost_triggerKept { tag := { origin := s.address, serial := cyclicNext s.cc.serial }, time }
    cause _).lineSound hserial
  refine State.LineSound.mono (hpost.putAttempts .trigger (by decide)) rfl fun src hold => ?_
  cases src with
  | trigger => rfl
  | _ => exact hold

theorem State.LineSound.keptByEvents : State.KeptByEvents State.LineSound where
  write d h := (State.write_triggerKept d _).lineSound h
  announce e q h := h.mono (by simp) fun _ => State.announceStep_holdsItem e q
  request cause time _ h := by
    unfold State.requestTrigger
    split
    case h_2 => exact h.originate _ _
    all_goals exact h
  cut _ h := h.of_eq
  strike h := h.of_eq

@[simp] theorem State.captureAtRunning_pendingTrigger (s : State) :
    s.captureAtRunning.cc.pendingTrigger = s.cc.pendingTrigger := by
  unfold State.captureAtRunning
  split <;> rfl

theorem State.LineSound.enterRunning {s : State} (h : s.LineSound) (levels : BitVec 12) :
    (s.enterRunning levels).LineSound := by
  refine State.LineSound.keptByEvents.enterRunning levels ?_ (fun _ hu => hu.of_eq) fun _ _ _ _ _ hu => hu.of_eq
  exact h.of_eq (by simp [State.opened]) (by simp [State.opened]) (by simp [State.opened]) (by simp [State.opened])
    (by simp [State.opened])

/-! ## Moves of the line -/

/-- The beginning of activity leaves a frame that is being sent, and no other (R130, R137). -/
theorem State.activityBegins_line (s : State) : s.activityBegins.lc.line = .stuck ∨
    (∃ stamp, s.activityBegins.lc.line = .receiving stamp) ∨
      ∃ since out w, s.lc.line = .transmitting since out w ∧ s.activityBegins.lc.line = .transmitting since out w := by
  unfold State.activityBegins
  dsimp only
  split <;> simp_all

theorem State.collide_backoffEnd (k : Nat) (s : State) : (s.collide k).lc.backoffEnd.isSome = true := by
  unfold State.collide
  dsimp only
  split <;> rfl

theorem LineMove.keepsLine {s : State} {lc : LineController} (m : LineMove s lc) (h : s.LineSound) :
    State.LineSound { s with lc } := by
  obtain ⟨hgenerator, hgood, hbroken, hcollisions, habandoned, hattempts, hbackoff, hstaged, hsent⟩ := id h
  have hresting : ∀ lc : LineController, lc.line = s.restingLine → lc.Idle := fun lc e =>
    LineController.idle_of_line (by rw [e]; exact s.restingLine_idle)
  cases m with
  | times => exact ⟨hgenerator, hgood, hbroken, hcollisions, habandoned, hattempts, hbackoff, hstaged, hsent⟩
  | begins =>
    rcases s.activityBegins_line with e | ⟨stamp, e⟩ | ⟨since, out, w, hline, e⟩
    · exact .of_idle (by simp [LineController.Idle, e]) hgenerator hgood hbroken hcollisions habandoned hattempts
        (by simp [e])
    · exact .of_idle (by simp [LineController.Idle, e]) hgenerator hgood hbroken hcollisions habandoned hattempts
        (by simp [e])
    · refine ⟨hgenerator, hgood, hbroken, hcollisions, habandoned, hattempts, by simp [e], by simp [e], ?_⟩
      intro _ _ _ e'
      cases e.symm.trans e'
      exact hsent _ _ _ hline
  | breaks =>
    exact .of_idle (hresting _ rfl) hgenerator hgood (satAdd_le _ _ _) hcollisions habandoned hattempts
      State.restingLine_backoff
  | accepts =>
    exact .of_idle (hresting _ rfl) hgenerator (satAdd_le _ _ _) hbroken hcollisions habandoned hattempts
      State.restingLine_backoff
  | stamps =>
    exact .of_idle (by simp [LineController.Idle]) hgenerator hgood hbroken hcollisions habandoned hattempts (by simp)
  | sends now hline =>
    refine ⟨hgenerator, hgood, hbroken, hcollisions, habandoned, hattempts, by simp, by simp, ?_⟩
    rintro since out w ⟨⟩
    exact ⟨(hstaged _ _ hline).1, fun _ => (hstaged _ _ hline).2⟩
  | inserts time hline =>
    refine ⟨hgenerator, hgood, hbroken, hcollisions, habandoned, hattempts, by simp, by simp, ?_⟩
    rintro since out w ⟨⟩
    rw [Outgoing.stamp_source]
    exact hsent _ _ _ hline
  | endsBackoff =>
    by_cases hline : s.lc.line = .backoff
    · simp only [hline, if_true]
      exact .of_idle (by simp [LineController.Idle]) hgenerator hgood hbroken hcollisions habandoned hattempts (by simp)
    · simp only [hline, if_false]
      exact ⟨hgenerator, hgood, hbroken, hcollisions, habandoned, hattempts, fun e => absurd e hline,
        fun since out e => ⟨rfl, (hstaged since out e).2⟩, fun since out w e => ⟨rfl, (hsent since out w e).2⟩⟩
  | completes =>
    exact .of_idle (by simp [LineController.Idle]) hgenerator hgood hbroken hcollisions habandoned hattempts (by simp)
  | collides k hline =>
    exact .of_idle (LineController.idle_of_line (.inl (s.collide_line k))) (backoffStep_range hgenerator) hgood hbroken
      (satAdd_le _ _ _) habandoned hattempts fun _ => s.collide_backoffEnd k
  | counts src hk => exact h.putAttempts src hk
  | abandons src =>
    exact ⟨hgenerator, hgood, hbroken, hcollisions, satAdd_le _ _ _, Attempts.get_put_lt hattempts (by decide) src,
      hbackoff, hstaged, hsent⟩

/-- Forming a batch leaves every source with an item it holds (R92). -/
theorem State.formBatch_holdsItem {s : State} {src : Source} (h : s.holdsItem src = true) :
    s.formBatch.holdsItem src = true := by
  unfold State.formBatch
  split
  · exact h
  · cases src with
    | event => simp [State.holdsItem]
    | _ => exact h

/-- A staging puts a frame that its source's item stands behind on the line (R129). -/
theorem State.LineSound.stage {s : State} (h : s.LineSound) (src : Source) (hitem : s.holdsItem src = true)
    (hback : s.lc.backoffEnd = none) : (s.stage src).LineSound := by
  have hform : ∀ u, u = (if src = .event then s.formBatch else s) →
      u.LineSound ∧ u.holdsItem src = true ∧ u.lc.backoffEnd = none := by
    rintro u rfl
    split
    · exact ⟨h.mono (by rw [State.formBatch_eq]) fun _ => State.formBatch_holdsItem, State.formBatch_holdsItem hitem,
        by rw [State.formBatch_eq]; exact hback⟩
    · exact ⟨h, hitem, hback⟩
  unfold State.stage
  dsimp only
  obtain ⟨hu, huitem, huback⟩ := hform _ rfl
  generalize (if src = .event then s.formBatch else s) = u at hu huitem huback ⊢
  split
  · exact hu
  · obtain ⟨hgenerator, hgood, hbroken, hcollisions, habandoned, hattempts, -, -, -⟩ := hu
    refine ⟨hgenerator, hgood, hbroken, hcollisions, habandoned, hattempts, by simp, ?_, by simp⟩
    rintro since out ⟨⟩
    exact ⟨huback, huitem⟩

/-- The end of a reply, and a fresh one (R150, R151). -/
theorem State.LineSound.endReply {s : State} (h : s.LineSound) : s.endReply.LineSound := by
  unfold State.endReply
  split
  · exact h
  · refine h.endItem .reply rfl fun src hsrc hold => ?_
    cases src with
    | reply => exact absurd rfl hsrc
    | _ => exact hold

theorem State.LineSound.placeReply {s : State} (h : s.LineSound) (kind : Byte) (payload : List Byte) :
    (s.placeReply kind payload).LineSound := by
  refine State.LineSound.mono (h.endReply.putAttempts .reply (by decide)) rfl fun src hold => ?_
  cases src with
  | reply => rfl
  | _ => exact hold

theorem Move.keepsLine {s t : State} (m : Move s t) (h : s.LineSound) : t.LineSound := by
  have kept := State.LineSound.keptByEvents
  have hidle (line : LineState) (active : Option Nat) (hline : line = .stuck ∨ line = s.restingLine) :
      State.LineSound { s with lc := { s.lc with line, activeSince := active } } := by
    refine .of_idle ?_ h.generatorRange h.goodMax h.brokenMax h.collisionsMax h.abandonedMax h.attemptsMax ?_
    · rcases hline with e | e
      · simp [LineController.Idle, e]
      · exact LineController.idle_of_line (by simpa only [e] using s.restingLine_idle)
    · rcases hline with e | e
      · simp [e]
      · simpa only [e] using State.restingLine_backoff
  cases m with
  | emit e => exact kept.emit e h
  | writeHeard d => exact kept.writeHeard d h
  | write d => exact kept.write d h
  | originate cause time => exact h.originate cause time
  | enterPost z cause => exact (State.enterPost_triggerKept z cause s).lineSound h
  | compare z => exact (State.compare_triggerKept z s).lineSound h
  | release reason => exact (State.release_triggerKept reason s).lineSound h
  | freeze reason => exact (State.freeze_triggerKept reason s).lineSound h
  | checkReference time c =>
    exact kept.checkReference time c h (fun _ _ hu => hu.of_eq) (fun _ hu => hu.of_eq) fun _ _ _ hu => hu.of_eq
  | timeUnit tu _ _ hbeacon =>
    refine h.mono rfl fun src hold => ?_
    cases src with
    | beacon => exact hbeacon hold
    | _ => exact hold
  | clash => exact h.of_eq
  | supply => exact h.of_eq
  | enterRunning levels => exact h.enterRunning levels
  | line lm => exact lm.keepsLine h
  | sticks => exact (hidle .stuck s.lc.activeSince (.inl rfl)).of_eq rfl rfl rfl rfl rfl
  | recovers => exact (hidle s.restingLine none (.inr rfl)).of_eq rfl rfl rfl rfl rfl
  | stage src hitem _ hback => exact h.stage src hitem hback
  | dropTrigger hline => exact h.of_idle_eq hline rfl
  | dropReply hline => exact h.of_idle_eq hline rfl
  | dropBeacon hline => exact h.of_idle_eq hline rfl
  | endBatch drops hline => exact h.of_idle_eq hline (by rw [State.endBatch_eq])
  | endReply => exact h.endReply
  | placeReply kind payload => exact h.placeReply kind payload
  | _ => exact h.of_eq

/-! ## STARTING and the resets -/

theorem State.LineSound.readStraps {s : State} (h : s.LineSound) (straps : Straps) : (s.readStraps straps).LineSound := by
  have hseed : 1 ≤ backoffSeed + straps.address.toNat ∧ backoffSeed + straps.address.toNat ≤ 32767 := by
    have := straps.address.isLt
    unfold backoffSeed
    omega
  obtain ⟨-, hgood, hbroken, hcollisions, habandoned, hattempts, hbackoff, hstaged, hsent⟩ := h
  unfold State.readStraps
  dsimp only
  split <;> exact ⟨hseed, hgood, hbroken, hcollisions, habandoned, hattempts, hbackoff, hstaged, hsent⟩

theorem State.LineSound.restore {s : State} (h : s.LineSound) : s.restore.LineSound := by
  unfold State.restore State.cutShort
  dsimp only
  repeat' split
  all_goals exact h.of_eq rfl rfl rfl rfl rfl

/-- The receiver's coming on starts the activity time alone (R145). -/
theorem State.LineSound.startReceiver {s : State} (h : s.LineSound) : s.startReceiver.LineSound :=
  ⟨h.generatorRange, h.goodMax, h.brokenMax, h.collisionsMax, h.abandonedMax, h.attemptsMax, h.backoffRuns, h.stagedItem,
    h.sentItem⟩

/-- A reset leaves of the Line Controller its generator alone (R126, R133). -/
theorem State.LineSound.of_initial {s t : State} (h : s.LineSound) (hlc : t.lc = .initial s.lc.generator) :
    t.LineSound := by
  refine .of_idle ?_ (hlc ▸ h.generatorRange) ?_ ?_ ?_ ?_ ?attempts ?_
  case attempts => exact fun src => by rw [hlc]; cases src <;> exact Nat.zero_lt_succ 11
  all_goals simp [hlc, LineController.initial, LineController.Idle]

/-- Settles O46: every move keeps the Line Controller sound, and so do STARTING, which seeds the generator, and the
resets. -/
theorem stepKeepsTheLineSound : Obligations.StepKeepsTheLineSound := by
  intro s t h hstep
  obtain ⟨rest, hcourse⟩ := step_course hstep
  refine hcourse.keeps (P := State.LineSound) Move.keepsLine ?unheld ?starting ?power ?cut ?reset h.of_eq
  case unheld => exact fun h => h.of_eq rfl rfl rfl rfl rfl
  case starting =>
    refine State.runStarting_keeps (fun straps h => h.readStraps straps) (fun h => h.restore) ?_ ?_ ?_
    · exact fun h => h.of_eq
    · exact fun _ h => h.startReceiver.of_eq
    · exact fun levels h => h.startReceiver.enterRunning levels
  case power => exact fun h => h.of_initial rfl
  case cut => exact fun _ h => h.of_eq
  case reset => exact fun _ _ h => h.of_initial rfl

end Sys2Proof.Machine
end

section
/-!
The capture record stays sound (R20, R28, R33, R34, R37). What holds of it apart from a pending TRIGGER frame holds in
every course, also in one that a reset cuts short; a pending frame belongs to a held capture in RUNNING.
-/

namespace Sys2Proof.Machine

/-! ## The record apart from a pending TRIGGER frame -/

/-- What is sound of the capture record whatever frame is pending. -/
def State.CaptureCore (s : State) : Prop := State.CaptureSound { s with cc := { s.cc with pendingTrigger := none } }

theorem State.captureSound_iff {s : State} : s.CaptureSound ↔ s.CaptureCore ∧
    (s.cc.pendingTrigger.isSome = true → s.cc.record.st.held = true) ∧
      (s.cc.pendingTrigger.isSome = true → s.sc.op = .running) := by
  constructor
  · intro h
    obtain ⟨hcount, hwritten, hbelow, hmark, hnoPost, hcleared, hseen, hdistinct, hcurrent, hretag, hunrecorded, hserial,
      hheld, hrunning, hpost, hfrozen, hruns⟩ := h
    exact ⟨⟨hcount, hwritten, hbelow, hmark, hnoPost, hcleared, hseen, hdistinct, hcurrent, hretag, hunrecorded, hserial,
      by simp, by simp, hpost, hfrozen, hruns⟩, hheld, hrunning⟩
  · rintro ⟨h, hheld, hrunning⟩
    obtain ⟨hcount, hwritten, hbelow, hmark, hnoPost, hcleared, hseen, hdistinct, hcurrent, hretag, hunrecorded, hserial,
      -, -, hpost, hfrozen, hruns⟩ := h
    exact ⟨hcount, hwritten, hbelow, hmark, hnoPost, hcleared, hseen, hdistinct, hcurrent, hretag, hunrecorded, hserial,
      hheld, hrunning, hpost, hfrozen, hruns⟩

/-- What the soundness of the record is about, apart from a pending frame. -/
def State.captureView (s : State) :=
  (s.cc.record, s.cc.serial, s.cc.postClock, s.cc.frozenClock, s.hr.nextSeq, s.sc.op, s.station.postCount)

theorem State.CaptureCore.of_view {s t : State} (h : s.CaptureCore) (e : t.captureView = s.captureView) :
    t.CaptureCore := by
  obtain ⟨hcount, hwritten, hbelow, hmark, hnoPost, hcleared, hseen, hdistinct, hcurrent, hretag, hunrecorded, hserial,
    -, -, hpost, hfrozen, hruns⟩ := h
  simp only [State.captureView, State.station, Prod.mk.injEq] at e
  obtain ⟨e1, e2, e3, e4, e5, e6, e7⟩ := e
  constructor
  case pendingInCapture => simp
  case pendingRunning => simp
  all_goals
    simp only [State.station, e1, e2, e3, e4, e5, e6, e7]
    assumption

/-- A record that holds no capture is cleared but for its state, and no duration is present (R20). -/
theorem State.CaptureCore.of_unheld {t : State} (hcount : 16 ≤ t.station.postCount ∧ t.station.postCount ≤ 447)
    (hheld : t.cc.record.st.held = false) (hcleared : { t.cc.record with st := .armed } = CaptureRecord.cleared)
    (hserial : t.cc.serial ≤ top8) (hpost : t.cc.postClock = none) (hfrozen : t.cc.frozenClock = none) :
    t.CaptureCore := by
  have hcurrent : t.cc.record.st.current = none := by simpa [CaptureState.held] using hheld
  have hnot : t.cc.record.st.isPost = false ∧ t.cc.record.st.isFrozen = false := by
    cases hst : t.cc.record.st <;> simp_all
  simp only [CaptureRecord.cleared, CaptureRecord.mk.injEq] at hcleared
  obtain ⟨-, hwritten, hretag, hseen, hoverflow, hunrecorded⟩ := hcleared
  constructor <;> simp_all [CaptureRecord.cleared, State.station]

/-- With no capture held the ring's counters do not matter (R20). -/
theorem State.CaptureCore.withRing {s : State} (h : s.CaptureCore) (hheld : s.cc.record.st.held = false) (hr : Ring) :
    State.CaptureCore { s with hr } := by
  have hcurrent : s.cc.record.st.current = none := by simpa [CaptureState.held] using hheld
  obtain ⟨hcount, hwritten, hbelow, -, hnoPost, hcleared, hseen, hdistinct, -, hretag, hunrecorded, hserial,
    -, -, hpost, hfrozen, hruns⟩ := h
  exact ⟨hcount, hwritten, hbelow, by simp [hcurrent], hnoPost, hcleared, hseen, hdistinct, by simp [hcurrent], hretag,
    hunrecorded, hserial, by simp, by simp, hpost, hfrozen, hruns⟩

/-- A capture that has just entered POST (R26 steps 3 and 4, R31). -/
theorem State.CaptureCore.of_entered {t : State} {cur : Current} {since : Nat}
    (hcount : 16 ≤ t.station.postCount ∧ t.station.postCount ≤ 447) (hop : t.sc.op = .running)
    (hrecord : t.cc.record =
      { st := .post cur, postWritten := 0, retag := 0, seen := [], overflow := false, unrecorded := 0 })
    (hmark : 1 ≤ cur.markSeq ∧ cur.markSeq + 1 = t.hr.nextSeq) (hserial : t.cc.serial ≤ top8)
    (hpost : t.cc.postClock = some (.running since)) (hfrozen : t.cc.frozenClock = none) : t.CaptureCore := by
  have hpositive : 0 < t.station.postCount := by omega
  constructor <;> simp_all [State.station]

/-- A change of the record's counts, list and current tag (R33, R34, R39). -/
theorem State.CaptureCore.setRecord {s : State} (h : s.CaptureCore) {r : CaptureRecord}
    (hheld : s.cc.record.st.held = true) (hpost : r.st.isPost = s.cc.record.st.isPost)
    (hfrozen : r.st.isFrozen = s.cc.record.st.isFrozen)
    (hmark : ∀ cur', r.st.current = some cur' → ∃ cur, s.cc.record.st.current = some cur ∧ cur'.markSeq = cur.markSeq)
    (hwritten : r.postWritten = s.cc.record.postWritten) (hseen : r.seen.length ≤ seenSize)
    (hdistinct : (r.seen.map (·.tag)).Nodup)
    (hcurrent : ∀ cur', r.st.current = some cur' → cur'.tag ∉ r.seen.map (·.tag)) (hretag : r.retag ≤ top8)
    (hunrecorded : r.unrecorded ≤ top16) : (s.setRecord r).CaptureCore := by
  have hstill : r.st.held = s.cc.record.st.held := by
    rw [Bool.eq_iff_iff, CaptureState.held_iff, CaptureState.held_iff, hpost, hfrozen]
  obtain ⟨hcount, hmax, hbelow, hseq, hnoPost, -, -, -, -, -, -, hserial, -, -, hclock, hfclock, hruns⟩ := h
  refine ⟨hcount, hwritten ▸ hmax, ?_, ?_, ?_, ?_, hseen, hdistinct, hcurrent, hretag, hunrecorded, hserial, by simp,
    by simp, ?_, ?_, ?_⟩
  · exact fun hop h => hwritten ▸ hbelow hop (hpost ▸ h)
  · intro cur' e
    obtain ⟨cur, e', hsame⟩ := hmark cur' e
    simpa [State.setRecord, hsame, hwritten] using hseq cur e'
  · exact fun hop => hpost ▸ hnoPost hop
  · simp [State.setRecord, hstill, hheld]
  · exact hclock.trans hstill.symm
  · exact hfclock.trans hfrozen.symm
  · exact fun h hop => hruns (hpost ▸ h) hop

/-- In POST a write that is taken moves next seq and post written together (R5, R37). -/
theorem State.CaptureCore.count {s t : State} {cur : Current} (h : s.CaptureCore) (hop : s.sc.op = .running)
    (hst : s.cc.record.st = .post cur) (hcount : s.cc.record.postWritten + 1 ≠ s.station.postCount)
    (hrecord : t.cc = { s.cc with
      record := { s.cc.record with postWritten := s.cc.record.postWritten + 1 } })
    (hring : t.hr.nextSeq = s.hr.nextSeq + 1) (hsc : t.sc = s.sc) : t.CaptureCore := by
  obtain ⟨hrange, -, hbelow, hseq, -, -, hseen, hdistinct, hcurrent, hretag, hunrecorded, hserial, -, -, hclock, hfclock,
    hruns⟩ := h
  have hlt := hbelow hop (by simp [hst])
  simp only [State.station] at *
  constructor <;> simp_all [State.station]
  all_goals omega

/-- POST becomes FROZEN (R37, R38). -/
theorem State.CaptureCore.frozen {s t : State} {cur : Current} {why : FreezeReason}
    (h : s.CaptureCore) (hst : s.cc.record.st = .post cur) {written : Nat} (hmax : written ≤ 447)
    (hrecord : t.cc.record = { s.cc.record with st := .frozen cur why, postWritten := written })
    (hseq : t.hr.nextSeq + s.cc.record.postWritten = s.hr.nextSeq + written) (hserial : t.cc.serial = s.cc.serial)
    (hpost : t.cc.postClock.isSome = true) (hfrozen : t.cc.frozenClock.isSome = true)
    (hrange : 16 ≤ t.station.postCount ∧ t.station.postCount ≤ 447) : t.CaptureCore := by
  obtain ⟨-, -, -, hmark, -, -, hseen, hdistinct, hcurrent, hretag, hunrecorded, hserial', -, -, -, -, -⟩ := h
  have hmark' := hmark cur (by simp [hst])
  have hcurrent' := hcurrent cur (by simp [hst])
  simp only [State.station] at *
  constructor <;> simp_all [State.station]
  all_goals omega

/-! ## The operations on the record -/

/-- A duration that is present stays so when it stops. -/
theorem State.CaptureCore.stopClock {s : State} (h : s.CaptureCore) (hheld : s.cc.record.st.held = true) :
    (s.stopClock s.cc.postClock).isSome = true := by
  have hsome : s.cc.postClock.isSome = true := h.postClock.trans hheld
  unfold State.stopClock
  split <;> simp_all

/-- The freezing of a capture in POST (R37, R38). -/
theorem State.CaptureCore.freeze {s : State} (h : s.CaptureCore) (reason : FreezeReason) :
    (s.freeze reason).CaptureCore := by
  unfold State.freeze
  split
  case h_3 cur hst => exact h.frozen hst h.writtenMax rfl rfl rfl (h.stopClock (by simp [hst])) rfl h.countRange
  all_goals exact h

/-- A withdrawal is about the pending frame alone (R28). -/
theorem State.withdrawTrigger_captureView (s : State) : s.withdrawTrigger.captureView = s.captureView := by
  unfold State.withdrawTrigger
  split <;> rfl

theorem State.CaptureCore.withdrawTrigger {s : State} (h : s.CaptureCore) : s.withdrawTrigger.CaptureCore :=
  h.of_view s.withdrawTrigger_captureView

/-- Clearing leaves no capture (R20, R42, R44). -/
theorem State.CaptureCore.clearRecord {s : State} (hcount : 16 ≤ s.station.postCount ∧ s.station.postCount ≤ 447)
    (hserial : s.cc.serial ≤ top8) : s.clearRecord.CaptureCore := by
  refine .of_unheld hcount ?_ ?_ hserial rfl rfl
  · simp only [State.clearRecord, State.setRecord, State.clearedRecord]
    split <;> rfl
  · rfl

theorem State.clearRecord_held (s : State) : s.clearRecord.cc.record.st.held = false := by
  simp only [State.clearRecord, State.setRecord, State.clearedRecord]
  split <;> rfl

/-- After the loss of a capture none is held (R44). -/
theorem State.CaptureCore.loseCapture {s : State} (hcount : 16 ≤ s.station.postCount ∧ s.station.postCount ≤ 447)
    (hserial : s.cc.serial ≤ top8) (h : s.cc.record.st.held = false → s.CaptureCore) :
    s.loseCapture.CaptureCore ∧ s.loseCapture.cc.record.st.held = false := by
  unfold State.loseCapture
  split
  case isTrue =>
    refine ⟨(State.CaptureCore.clearRecord hcount hserial).withdrawTrigger, ?_⟩
    have hview := s.clearRecord.withdrawTrigger_captureView
    simp only [State.captureView, Prod.mk.injEq] at hview
    rw [hview.1]
    exact s.clearRecord_held
  case isFalse hheld => exact ⟨h (by simpa using hheld), by simpa using hheld⟩

theorem State.CaptureCore.sequenceRestart {s : State} (h : s.CaptureCore) (d : Draft) :
    (s.sequenceRestart d).CaptureCore := by
  obtain ⟨hcore, hheld⟩ := State.CaptureCore.loseCapture (s := { s with hr := s.hr.emptied }) h.countRange h.serialMax
    fun hheld => h.withRing hheld _
  exact hcore.withRing hheld _

/-- A write keeps the record sound (R4, R8, R37, R39). -/
theorem State.CaptureCore.write {s : State} (h : s.CaptureCore) (d : Draft) : (s.write d).1.CaptureCore := by
  by_cases hop : s.sc.op = .running
  case neg => rwa [State.write_notRunning d hop]
  by_cases hfrozen : s.cc.record.st.isFrozen = true
  case pos =>
    rw [State.write_frozen d hop hfrozen]
    exact h.setRecord ((CaptureState.held_iff _).mpr (.inr hfrozen)) rfl rfl (fun cur e => ⟨cur, e, rfl⟩) rfl h.seenMax
      h.seenDistinct h.currentNotSeen h.retagMax (satAdd_le _ _ _)
  case neg =>
  have hfrozen : s.cc.record.st.isFrozen = false := by simpa using hfrozen
  by_cases hn : s.hr.nextSeq = seqLimit
  case pos => rw [State.write_restart d hop hfrozen hn]; exact h.sequenceRestart d
  case neg =>
  cases hst : s.cc.record.st with
  | post cur =>
    by_cases hc : s.cc.record.postWritten + 1 = s.station.postCount
    · rw [State.write_post_last d hop hst hn hc]
      have hmax : s.cc.record.postWritten + 1 ≤ 447 := hc ▸ h.countRange.2
      refine h.frozen hst hmax rfl ?_ rfl (h.stopClock (by simp [hst])) rfl h.countRange
      simp only [Ring.store]
      omega
    · rw [State.write_post d hop hst hn hc]
      exact h.count hop hst hc rfl rfl rfl
  | frozen cur why => simp [hst] at hfrozen
  | _ =>
    rw [State.write_plain d hop hfrozen (by simp [hst]) hn]
    exact h.withRing (by simp [hst]) _

/-- Entry to POST from ARMED: the mark has the seq before next seq (R26 steps 3 and 4, R31). -/
theorem State.CaptureCore.enterPost {s : State} (h : s.CaptureCore) (hr : s.hr.Sound) (z : TimedTag) (cause : Cause)
    (hop : s.sc.op = .running) (harmed : s.cc.record.st = .armed) : (s.enterPost z cause).CaptureCore := by
  have hpositive : 1 ≤ s.hr.nextSeq := by have := hr.heldBelow; omega
  by_cases hn : s.hr.nextSeq = seqLimit
  · rw [State.enterPost_restart z cause hop harmed hn]
    exact .of_entered h.countRange hop rfl ⟨by simp, rfl⟩ h.serialMax rfl rfl
  · rw [State.enterPost_armed z cause hop harmed hn]
    exact .of_entered h.countRange hop rfl ⟨hpositive, rfl⟩ h.serialMax rfl rfl

theorem State.CaptureCore.originate {s : State} (h : s.CaptureCore) (hr : s.hr.Sound) (cause : Cause) (time : Nat)
    (hop : s.sc.op = .running) (harmed : s.cc.record.st = .armed) : (s.originate cause time).CaptureCore := by
  have hserial : State.CaptureCore { s with cc := { s.cc with serial := cyclicNext s.cc.serial } } :=
    .of_unheld h.countRange (by simp [harmed]) (h.cleared (by simp [harmed])) (cyclicNext_le _)
      (by simpa [harmed] using h.postClock) (by simpa [harmed] using h.frozenClock)
  exact State.CaptureCore.of_view (State.CaptureCore.enterPost hserial hr _ cause hop harmed) rfl

/-! ## A comparison (R33, R34) -/

theorem CaptureState.held_of_current {st : CaptureState} {cur : Current} (h : st.current = some cur) :
    st.held = true := by
  simp [CaptureState.held, h]

/-- A tag that is neither the current one nor seen joins the seen list, which then still lists distinct tags. -/
theorem CaptureRecord.see_listed {r : CaptureRecord} {z : TimedTag} (hmax : r.seen.length ≤ seenSize)
    (hdistinct : (r.seen.map (·.tag)).Nodup) (hz : z.tag ∉ r.seen.map (·.tag)) :
    (r.see z).seen.length ≤ seenSize ∧ ((r.see z).seen.map (·.tag)).Nodup ∧
      ∀ x ∈ (r.see z).seen.map (·.tag), x ∈ r.seen.map (·.tag) ∨ x = z.tag := by
  unfold CaptureRecord.see
  split
  case isTrue hroom =>
    refine ⟨by simpa using hroom, ?_, fun x hx => by simpa [or_assoc] using hx⟩
    rw [List.map_append]
    exact hdistinct.append (List.nodup_singleton _) (by simpa [List.disjoint_singleton] using hz)
  case isFalse => exact ⟨hmax, hdistinct, fun x hx => .inl hx⟩

theorem CaptureRecord.see_eq (r : CaptureRecord) (z : TimedTag) :
    r.see z = { r with seen := (r.see z).seen, overflow := (r.see z).overflow } := by
  unfold CaptureRecord.see
  split <;> rfl

/-- The current fields after an adoption: the adopted tag, and the mark as it was (R33 step 2). -/
theorem CaptureRecord.adopt_st (r : CaptureRecord) (cur : Current) (z : TimedTag) :
    (r.adopt cur z).st.isPost = r.st.isPost ∧ (r.adopt cur z).st.isFrozen = r.st.isFrozen ∧
      ∀ cur', (r.adopt cur z).st.current = some cur' →
        cur'.tag = z.tag ∧ ∃ c, r.st.current = some c ∧ cur'.markSeq = c.markSeq := by
  unfold CaptureRecord.adopt
  dsimp only
  cases r.st <;> simp

theorem State.CaptureCore.compare {s : State} (h : s.CaptureCore) (z : TimedTag) : (s.compare z).CaptureCore := by
  have hwrite (u : State) (a b c : Bool) (hu : u.CaptureCore) : (u.writeSeen a b z c).CaptureCore := by
    unfold State.writeSeen
    split
    · exact hu.write _
    · exact hu
  unfold State.compare
  dsimp only
  split
  case h_1 => exact h
  case h_2 cur hcur =>
    have hheld := CaptureState.held_of_current hcur
    split
    case isTrue => exact h
    case isFalse hnew =>
      have hz : cur.tag ≠ z.tag ∧ z.tag ∉ s.cc.record.seen.map (·.tag) := by simpa using hnew
      have hnot := h.currentNotSeen cur hcur
      split
      case isTrue =>
        obtain ⟨hlength, hdistinct, hmem⟩ := CaptureRecord.see_listed (z := cur.timedTag) h.seenMax h.seenDistinct hnot
        obtain ⟨hpost, hfrozen, hadopted⟩ := s.cc.record.adopt_st cur z
        refine hwrite _ _ _ _ (State.CaptureCore.withdrawTrigger (h.setRecord hheld hpost hfrozen
          (fun cur' e => (hadopted cur' e).2) ?_ hlength hdistinct (fun cur' e hx => ?_) (satAdd_le _ _ _) ?_))
        · rw [CaptureRecord.adopt, CaptureRecord.see_eq]
        · rw [(hadopted cur' e).1] at hx
          rcases hmem _ hx with e' | e'
          · exact hz.2 e'
          · exact hz.1 e'.symm
        · rw [CaptureRecord.adopt, CaptureRecord.see_eq]
          exact h.unrecordedMax
      case isFalse =>
        obtain ⟨hlength, hdistinct, hmem⟩ := CaptureRecord.see_listed h.seenMax h.seenDistinct hz.2
        have hsee := s.cc.record.see_eq z
        refine hwrite _ _ _ _ (h.setRecord hheld (by rw [hsee]) (by rw [hsee]) (fun cur' e => ⟨cur', ?_, rfl⟩)
          (by rw [hsee]) hlength hdistinct (fun cur' e hx => ?_) ?_ ?_)
        · rwa [hsee] at e
        · rw [hsee] at e
          cases hcur.symm.trans e
          rcases hmem _ hx with e' | e'
          · exact hnot e'
          · exact hz.1 e'
        · rw [hsee]; exact h.retagMax
        · rw [hsee]; exact h.unrecordedMax

theorem State.CaptureCore.release {s : State} (h : s.CaptureCore) (reason : ReleaseReason) :
    (s.release reason).CaptureCore := by
  unfold State.release
  dsimp only
  split
  case h_4 =>
    have hw := h.withdrawTrigger
    exact (State.CaptureCore.clearRecord (s := s.withdrawTrigger) hw.countRange hw.serialMax).write _
  all_goals exact h

/-! ## Between the operating states -/

/-- In STARTING the record may hold a capture of any state; only its clocks and its mark count (R14, R45). -/
theorem State.CaptureCore.of_starting {s t : State} (h : s.CaptureCore) (hop : t.sc.op = .starting)
    (hrecord : t.cc.record = s.cc.record) (hserial : t.cc.serial = s.cc.serial) (hseq : t.hr.nextSeq = s.hr.nextSeq)
    (hcount : 16 ≤ t.station.postCount ∧ t.station.postCount ≤ 447)
    (hpost : t.cc.postClock.isSome = s.cc.record.st.held) (hfrozen : t.cc.frozenClock.isSome = s.cc.record.st.isFrozen) :
    t.CaptureCore := by
  obtain ⟨-, hwritten, -, hmark, -, hcleared, hseen, hdistinct, hcurrent, hretag, hunrecorded, hserial', -, -, -, -, -⟩ := h
  simp only [State.station] at *
  constructor
  case belowCount => simp [hop]
  case noPost => simp [hop]
  case pendingInCapture => simp
  case pendingRunning => simp
  case postRuns => simp [hop]
  all_goals
    simp only [State.station, hrecord, hserial, hseq]
    assumption

theorem State.CaptureCore.strike {s : State} (h : s.CaptureCore) : s.strike.CaptureCore :=
  h.of_starting rfl rfl rfl rfl h.countRange h.postClock h.frozenClock

/-- What the handling of events keeps of the record and of the ring. -/
theorem State.CaptureCore.keptByEvents : State.KeptByEvents fun s => s.CaptureCore ∧ s.hr.Sound where
  write d h := ⟨h.1.write d, State.Sound.write h.2 d⟩
  announce e q h := ⟨h.1.of_view (by simp [State.captureView, State.station]), by simpa using h.2⟩
  request cause time hop h := by
    refine ⟨?_, State.Sound.requestTrigger h.2 cause time⟩
    unfold State.requestTrigger
    split
    case h_2 harmed => exact h.1.originate h.2 _ _ hop harmed
    all_goals exact h.1
  cut _ h := ⟨h.1.of_view rfl, h.2⟩
  strike h := ⟨h.1.strike, h.2⟩

/-- Entry to RUNNING finds no capture in POST, and what it does with the record keeps it sound (R23, R47). -/
theorem State.CaptureCore.opened {s : State} (h : s.CaptureCore) (hpost : s.cc.record.st.isPost = false) :
    s.opened.CaptureCore := by
  have harm (st : CaptureState) (hst : st.held = false) (hheld : s.cc.record.st.held = false) : State.CaptureCore
      (State.setRecord { s.cc.record with st } { s with sc := { s.sc with op := .running, setupSince := none } }) := by
    have hfrozen : s.cc.record.st.isFrozen = false := by cases hst' : s.cc.record.st <;> simp_all
    have hclocks : s.cc.postClock = none ∧ s.cc.frozenClock = none :=
      ⟨by simpa [hheld] using h.postClock, by simpa [hfrozen] using h.frozenClock⟩
    exact .of_unheld h.countRange hst (h.cleared hheld) h.serialMax hclocks.1 hclocks.2
  unfold State.opened State.captureAtRunning
  dsimp only
  split
  case h_1 hst => exact harm _ (by split <;> rfl) (by simp [hst])
  case h_2 hst => exact harm _ (by split <;> rfl) (by simp [hst])
  case h_3 cur hst => simp [hst] at hpost
  case h_4 cur why hst =>
    obtain ⟨hcount, hwritten, -, hmark, -, hcleared, hseen, hdistinct, hcurrent, hretag, hunrecorded, hserial, -, -, hclock,
      -, -⟩ := h
    constructor <;> simp_all [State.station]

theorem State.CaptureCore.enterRunning {s : State} (h : s.CaptureCore) (hr : s.hr.Sound)
    (hpost : s.cc.record.st.isPost = false) (levels : BitVec 12) : (s.enterRunning levels).CaptureCore :=
  (State.CaptureCore.keptByEvents.enterRunning levels ⟨h.opened hpost, State.Sound.opened hr⟩
    (fun _ hu => ⟨hu.1.of_view rfl, hu.2⟩) fun _ _ _ _ _ hu => ⟨hu.1.of_view rfl, hu.2⟩).1

/-- A STATION section that R178 allows has a post count in its range. -/
theorem StartupController.configure_countRange {c : StartupController}
    (h : 16 ≤ c.config.station.postCount ∧ c.config.station.postCount ≤ 447) {r : SectionResult} (hr : r.Valid) :
    16 ≤ (c.configure r).config.station.postCount ∧ (c.configure r).config.station.postCount ≤ 447 := by
  cases r with
  | station x =>
    simp only [SectionResult.Valid, StationSection.valid, Bool.and_eq_true, decide_eq_true_eq] at hr
    simp only [StartupController.configure]
    omega
  | _ => exact h

/-- In SETUP no capture is in POST, so a new post count does not matter (R161). -/
theorem State.CaptureCore.configure {s : State} (h : s.CaptureCore) (hop : s.sc.op = .setup) (payload : List Byte) :
    State.CaptureCore { s with sc := s.sc.configure (parseSection payload) } := by
  have hcount := StartupController.configure_countRange h.countRange (parseSection_valid payload)
  obtain ⟨-, hwritten, -, hmark, hnoPost, hcleared, hseen, hdistinct, hcurrent, hretag, hunrecorded, hserial, -, -, hclock,
    hfclock, -⟩ := h
  have hstill : (s.sc.configure (parseSection payload)).op = .setup := by rw [StartupController.configure_eq]; exact hop
  refine ⟨hcount, hwritten, ?_, hmark, fun _ => hnoPost (.inl hop), hcleared, hseen, hdistinct, hcurrent, hretag,
    hunrecorded, hserial, by simp, by simp, hclock, hfclock, ?_⟩
  all_goals simp [hstill]

theorem Move.keepsCore {s t : State} (m : Move s t) (h : s.CaptureCore) (hr : s.hr.Sound) : t.CaptureCore := by
  have kept := State.CaptureCore.keptByEvents
  cases m with
  | emit e => exact (kept.emit e ⟨h, hr⟩).1
  | writeHeard d => exact (kept.writeHeard d ⟨h, hr⟩).1
  | write d => exact h.write d
  | originate cause time hop harmed => exact h.originate hr cause time hop harmed
  | enterPost z cause hop harmed => exact h.enterPost hr z cause hop harmed
  | compare z => exact h.compare z
  | release reason => exact h.release reason
  | freeze reason => exact h.freeze reason
  | checkReference time c =>
    exact (kept.checkReference time c ⟨h, hr⟩ (fun _ _ hu => ⟨hu.1.of_view rfl, hu.2⟩)
      (fun _ hu => ⟨hu.1.of_view rfl, hu.2⟩) fun _ _ _ hu => ⟨hu.1.of_view rfl, hu.2⟩).1
  | configure payload hop => exact h.configure hop payload
  | enterRunning levels hop => exact h.enterRunning hr (h.noPost (.inl hop)) levels
  | stage src => rw [State.stage_eq]; exact h.of_view rfl
  | endBatch drops => rw [State.endBatch_eq]; exact h.of_view rfl
  | endReply => exact h.of_view (by simp [State.captureView, State.station])
  | placeReply kind payload => exact h.of_view (by simp [State.captureView, State.station])
  | _ => exact h.of_view rfl

/-- No move leaves STARTING. -/
theorem Move.op_starting {s t : State} (m : Move s t) (h : s.sc.op = .starting) : t.sc.op = .starting := by
  have kept : State.KeptByEvents fun u => u.sc.op = .starting :=
    ⟨by simp, by simp, by simp, by simp, by simp [State.strike]⟩
  cases m with
  | emit e => exact kept.emit e h
  | writeHeard d => exact kept.writeHeard d h
  | checkReference time c =>
    exact kept.checkReference time c h (fun _ _ hu => hu) (fun _ hu => hu) fun _ _ _ hu => hu
  | configure payload hop => cases h.symm.trans hop
  | enterRunning levels hop => cases h.symm.trans hop
  | clash => exact h
  | supply => exact h
  | sticks => exact h
  | recovers => exact h
  | stage src => rwa [State.stage_eq]
  | endBatch drops => rwa [State.endBatch_eq]
  | _ => simpa using h

/-! ## STARTING and the resets -/

/-- The post count of both profiles (Table 9-3). -/
theorem profileOf_countRange (strap : Bool) :
    16 ≤ (profileOf strap).station.postCount ∧ (profileOf strap).station.postCount ≤ 447 := by
  cases strap <;> decide

theorem State.CaptureCore.readStraps {s : State} (h : s.CaptureCore) (hop : s.sc.op = .starting) (straps : Straps) :
    (s.readStraps straps).CaptureCore := by
  unfold State.readStraps
  dsimp only
  split <;> exact h.of_starting hop rfl rfl rfl (profileOf_countRange _) h.postClock h.frozenClock

theorem State.CaptureCore.discardHistory {s : State} (h : s.CaptureCore) : s.discardHistory.CaptureCore :=
  .of_unheld h.countRange rfl rfl (Nat.zero_le _) rfl rfl

theorem State.CaptureCore.cutShort {s : State} (h : s.CaptureCore) : s.cutShort.CaptureCore := by
  unfold State.cutShort
  split
  case h_3 cur hst =>
    exact h.frozen hst h.writtenMax rfl rfl rfl (h.postClock.trans (by simp [hst])) rfl h.countRange
  all_goals exact h

theorem State.cutShort_isPost (s : State) : s.cutShort.cc.record.st.isPost = false := by
  unfold State.cutShort
  split <;> simp_all [State.setRecord]

/-- The restore leaves a sound record and no capture in POST (R16, R18, R45). -/
theorem State.CaptureCore.restore {s : State} (h : s.CaptureCore) :
    s.restore.CaptureCore ∧ s.restore.cc.record.st.isPost = false := by
  unfold State.restore
  dsimp only
  split
  · exact ⟨h.discardHistory.of_view rfl, rfl⟩
  · split
    · refine ⟨h.cutShort.of_view ?_, s.cutShort_isPost⟩
      rfl
    · exact ⟨h.discardHistory.of_view rfl, rfl⟩

theorem State.CaptureCore.leaveStarting {s : State} (h : s.CaptureCore) (hr : s.hr.Sound)
    (hpost : s.cc.record.st.isPost = false) (levels : BitVec 12) : (s.leaveStarting levels).CaptureCore := by
  unfold State.leaveStarting
  split
  · obtain ⟨hcount, hwritten, -, hmark, -, hcleared, hseen, hdistinct, hcurrent, hretag, hunrecorded, hserial, -, -, hclock,
      hfclock, -⟩ := h
    exact ⟨hcount, hwritten, by simp, hmark, fun _ => hpost, hcleared, hseen, hdistinct, hcurrent, hretag, hunrecorded,
      hserial, by simp, by simp, hclock, hfclock, by simp⟩
  · split
    · obtain ⟨hcount, hwritten, -, hmark, -, hcleared, hseen, hdistinct, hcurrent, hretag, hunrecorded, hserial, -, -,
        hclock, hfclock, -⟩ := h
      exact ⟨hcount, hwritten, by simp, hmark, fun _ => hpost, hcleared, hseen, hdistinct, hcurrent, hretag, hunrecorded,
        hserial, by simp, by simp, hclock, hfclock, by simp⟩
    · exact State.CaptureCore.enterRunning (s := s.startReceiver) (h.of_view rfl) hr hpost levels

theorem State.CaptureCore.runStarting {s : State} (h : s.CaptureCore) (hr : s.hr.Sound) (hop : s.sc.op = .starting)
    (straps : Straps) (ending : StartingEnd) (levels : BitVec 12) : (s.runStarting straps ending levels).CaptureCore := by
  have hread := h.readStraps hop straps
  obtain ⟨hrestore, hpost⟩ := hread.restore
  cases ending with
  | struckBeforeRestore => exact hread
  | struckAfterRestore => exact hrestore
  | completes =>
    exact hrestore.leaveStarting (State.Sound.restore (State.Sound.readStraps hr straps)) hpost levels

/-- The durations of a stored capture are present after a reset, at values of their own (R14). -/
theorem State.CaptureCore.resetBlocks {s : State} (h : s.CaptureCore) : s.resetBlocks.CaptureCore := by
  refine h.of_starting rfl rfl rfl rfl (profileOf_countRange _) ?_ ?_
  · simp only [State.resetBlocks]
    split <;> simp_all
  · simp only [State.resetBlocks]
    split <;> simp_all

theorem State.CaptureCore.beginRetaining {s : State} (h : s.CaptureCore) (cause : ResetCause) (inside : Bool) :
    (s.beginRetaining cause inside).CaptureCore := by
  refine h.resetBlocks.of_view ?_
  cases inside <;> rfl

/-- A course keeps the record sound apart from a pending frame, also where a reset cuts it short. -/
theorem Course.keepsCore {s t : State} (course : Course s t)
    (hstart : s.sc.resetHeld = true → s.sc.op = .starting) (hr : s.hr.Sound) (h : s.CaptureCore) : t.CaptureCore := by
  have hmove {u v : State} (m : Move u v) (hu : u.CaptureCore ∧ u.hr.Sound) : v.CaptureCore ∧ v.hr.Sound :=
    ⟨m.keepsCore hu.1 hu.2, m.keepsRing hu.2⟩
  induction course with
  | moves run => exact (run.keeps hmove ⟨h, hr⟩).1
  | starting straps ending levels held watched hop =>
    obtain ⟨hw, hwr⟩ := watched.keeps (P := fun u => u.CaptureCore ∧ u.hr.Sound) hmove ⟨h.of_view rfl, hr⟩
    exact hw.runStarting hwr (hop (hstart held)) straps ending levels
  | powerOn s => exact (h.resetBlocks.discardHistory).of_view rfl
  | resetBetween cause inside run => exact (run.keeps hmove ⟨h, hr⟩).1.beginRetaining cause inside
  | resetWithin cause inside passed run found ih =>
    obtain ⟨hu, hur⟩ := run.keeps hmove ⟨h, hr⟩
    have hheld := run.keeps (P := fun u => u.sc.resetHeld = true → u.sc.op = .starting)
      (fun m hu hheld => m.op_starting (hu (m.resetHeld.symm.trans hheld))) hstart
    exact (ih hheld hur (hu.of_view rfl)).beginRetaining cause inside

/-! ## The pending TRIGGER frame (R28) -/

/-- A pending TRIGGER frame is that of a held capture. -/
def State.PendingHeld (s : State) : Prop := s.cc.pendingTrigger.isSome = true → s.cc.record.st.held = true

theorem State.PendingHeld.of_none {s : State} (h : s.cc.pendingTrigger = none) : s.PendingHeld := by
  simp [State.PendingHeld, h]

theorem State.PendingHeld.setRecord {s : State} (h : s.PendingHeld) {r : CaptureRecord}
    (hheld : r.st.held = s.cc.record.st.held) : (s.setRecord r).PendingHeld := fun hsome => hheld.trans (h hsome)

theorem State.withdrawTrigger_pendingTrigger (s : State) : s.withdrawTrigger.cc.pendingTrigger = none := by
  unfold State.withdrawTrigger
  split <;> simp_all

theorem State.freeze_held (reason : FreezeReason) (s : State) :
    (s.freeze reason).cc.record.st.held = s.cc.record.st.held ∧
      (s.freeze reason).cc.pendingTrigger = s.cc.pendingTrigger := by
  unfold State.freeze
  dsimp only
  split
  case h_3 cur hst => exact ⟨by rw [hst]; rfl, rfl⟩
  all_goals exact ⟨rfl, rfl⟩

theorem State.countPost_held (s : State) : s.countPost.cc.record.st.held = s.cc.record.st.held ∧
    s.countPost.cc.pendingTrigger = s.cc.pendingTrigger := by
  unfold State.countPost
  dsimp only
  split
  · split
    · exact State.freeze_held _ (s.setRecord _)
    · exact ⟨rfl, rfl⟩
  · exact ⟨rfl, rfl⟩

theorem State.loseCapture_pendingTrigger {s : State} (h : s.PendingHeld) : s.loseCapture.cc.pendingTrigger = none := by
  unfold State.loseCapture
  split
  case isTrue => exact s.clearRecord.withdrawTrigger_pendingTrigger
  case isFalse hheld => simpa using mt h hheld

/-- A write keeps a pending frame's capture held, or loses both (R28, R44). -/
theorem State.PendingHeld.write {s : State} (h : s.PendingHeld) (d : Draft) : (s.write d).1.PendingHeld := by
  unfold State.write
  split
  · exact h
  · split
    · exact h
    · split
      · exact .of_none (State.loseCapture_pendingTrigger (s := { s with hr := s.hr.emptied }) h)
      · obtain ⟨hheld, hpending⟩ := State.countPost_held { s with hr := s.hr.store d }
        intro hsome
        rw [hheld]
        exact h (hpending ▸ hsome)

/-- After entry to POST a capture is held. -/
theorem State.enterPost_held {s : State} (z : TimedTag) (cause : Cause) (hop : s.sc.op = .running)
    (harmed : s.cc.record.st = .armed) : (s.enterPost z cause).cc.record.st.held = true := by
  by_cases hn : s.hr.nextSeq = seqLimit
  · rw [State.enterPost_restart z cause hop harmed hn]; rfl
  · rw [State.enterPost_armed z cause hop harmed hn]; rfl

theorem State.originate_held {s : State} (cause : Cause) (time : Nat) (hop : s.sc.op = .running)
    (harmed : s.cc.record.st = .armed) : (s.originate cause time).cc.record.st.held = true :=
  State.enterPost_held (s := { s with cc := { s.cc with serial := cyclicNext s.cc.serial } }) _ cause hop harmed

theorem State.PendingHeld.keptByEvents : State.KeptByEvents State.PendingHeld where
  write d h := h.write d
  announce e q h := by simpa [State.PendingHeld] using h
  request cause time hop h := by
    unfold State.requestTrigger
    split
    case h_2 harmed => exact fun _ => State.originate_held _ _ hop harmed
    all_goals exact h
  cut _ h := h
  strike h := h

theorem State.PendingHeld.compare {s : State} (h : s.PendingHeld) (z : TimedTag) : (s.compare z).PendingHeld := by
  have hwrite (u : State) (a b c : Bool) (hu : u.PendingHeld) : (u.writeSeen a b z c).PendingHeld := by
    unfold State.writeSeen
    split
    · exact hu.write _
    · exact hu
  unfold State.compare
  dsimp only
  split
  · exact h
  · split
    · exact h
    · split
      · exact hwrite _ _ _ _ (.of_none (State.withdrawTrigger_pendingTrigger _))
      · exact hwrite _ _ _ _ (h.setRecord (by rw [CaptureRecord.see_eq]))

theorem State.PendingHeld.release {s : State} (h : s.PendingHeld) (reason : ReleaseReason) :
    (s.release reason).PendingHeld := by
  unfold State.release
  dsimp only
  split
  case h_4 =>
    refine State.PendingHeld.write (s := s.withdrawTrigger.clearRecord) ?_ _
    exact .of_none s.withdrawTrigger_pendingTrigger
  all_goals exact h

theorem State.PendingHeld.enterRunning {s : State} (h : s.PendingHeld) (levels : BitVec 12) :
    (s.enterRunning levels).PendingHeld := by
  refine State.PendingHeld.keptByEvents.enterRunning levels ?_ (fun _ hu => hu) fun _ _ _ _ _ hu => hu
  unfold State.PendingHeld State.opened at *
  rw [State.captureAtRunning_pendingTrigger]
  unfold State.captureAtRunning
  dsimp only
  split <;> simp_all

theorem Move.keepsPendingHeld {s t : State} (m : Move s t) (h : s.PendingHeld) : t.PendingHeld := by
  have kept := State.PendingHeld.keptByEvents
  cases m with
  | emit e => exact kept.emit e h
  | writeHeard d => exact kept.writeHeard d h
  | write d => exact h.write d
  | originate cause time hop harmed => exact fun _ => State.originate_held cause time hop harmed
  | enterPost z cause hop harmed => exact fun _ => State.enterPost_held z cause hop harmed
  | compare z => exact h.compare z
  | release reason => exact h.release reason
  | freeze reason =>
    obtain ⟨hheld, hpending⟩ := State.freeze_held reason s
    exact fun hsome => hheld.trans (h (hpending ▸ hsome))
  | checkReference time c => exact kept.checkReference time c h (fun _ _ hu => hu) (fun _ hu => hu) fun _ _ _ hu => hu
  | enterRunning levels => exact h.enterRunning levels
  | stage src => rw [State.stage_eq]; exact h
  | dropTrigger => exact .of_none rfl
  | endBatch drops => rw [State.endBatch_eq]; exact h
  | endReply => simpa [State.PendingHeld] using h
  | placeReply => simpa [State.PendingHeld] using h
  | _ => exact h

/-- A TRIGGER frame is pending in RUNNING alone. -/
def State.PendingRunning (s : State) : Prop := s.cc.pendingTrigger.isSome = true → s.sc.op = .running

theorem State.PendingRunning.emit {s : State} (h : s.PendingRunning) (hcut : s.cut = none) (e : LocalEvent) :
    (s.emit e).PendingRunning := by
  by_cases hop : s.sc.op = .running
  · exact fun _ => by rw [State.emit_sc e hcut, hop]
  · rwa [State.emit_notRunning e hop]

/-- An operation on the record leaves no frame pending that was not (R28). -/
theorem State.TriggerKept.pendingRunning {s t : State} (h : s.TriggerKept t) (hs : s.PendingRunning)
    (hsc : t.sc = s.sc := by simp) : t.PendingRunning := by
  intro hsome
  rcases h with ⟨-, hpending⟩ | ⟨-, -, hnone⟩
  · rw [hsc]
    exact hs (hpending ▸ hsome)
  · simp [hnone] at hsome

/-- Where no reset strikes, every move leaves a pending frame to RUNNING alone. -/
theorem Move.keepsPendingRunning {s t : State} (m : Move s t) (hcut : s.cut = none) (h : s.PendingRunning) :
    t.PendingRunning := by
  cases m with
  | emit e => exact h.emit hcut e
  | writeHeard d =>
    rw [State.writeHeard_uncut d hcut]
    split
    · exact (State.write_triggerKept d s).pendingRunning h
    · exact h
  | write d => exact (State.write_triggerKept d s).pendingRunning h
  | originate cause time hop => exact fun _ => by simpa using hop
  | enterPost z cause hop => exact fun _ => by simpa using hop
  | compare z => exact (State.compare_triggerKept z s).pendingRunning h
  | release reason => exact (State.release_triggerKept reason s).pendingRunning h
  | freeze reason => exact (State.freeze_triggerKept reason s).pendingRunning h
  | checkReference time c =>
    have hemit (an : Scanner) (e : LocalEvent) (v : Bool) :
        ((State.emit e { s with an }).setCondition .analogFault v).PendingRunning :=
      State.PendingRunning.emit (s := { s with an }) h hcut e
    unfold State.checkReference
    dsimp only
    split
    · split
      · exact hemit _ _ _
      · exact h
    · split
      · exact h
      · split
        · exact h
        · exact hemit _ _ _
  | configure payload => rw [StartupController.configure_eq]; exact h
  | enterRunning levels => exact fun _ => by rw [(State.enterRunning_uncut levels hcut).1]
  | stage src => rw [State.stage_eq]; exact h
  | dropTrigger => simp [State.PendingRunning]
  | endBatch drops => rw [State.endBatch_eq]; exact h
  | endReply => simpa [State.PendingRunning] using h
  | placeReply => simpa [State.PendingRunning] using h
  | _ => exact h

theorem State.runStarting_pending {s : State} (h : s.cc.pendingTrigger = none) (hcut : s.cut = none) (straps : Straps)
    (ending : StartingEnd) (levels : BitVec 12) :
    (s.runStarting straps ending levels).PendingHeld ∧ (s.runStarting straps ending levels).PendingRunning := by
  have hread : (s.readStraps straps).cc.pendingTrigger = none := by
    unfold State.readStraps
    dsimp only
    split <;> exact h
  have hrestore : (s.readStraps straps).restore.cc.pendingTrigger = none := by
    unfold State.restore State.cutShort
    dsimp only
    repeat' split
    all_goals exact hread
  have hnone {u : State} (hu : u.cc.pendingTrigger = none) : u.PendingHeld ∧ u.PendingRunning :=
    ⟨.of_none hu, by simp [State.PendingRunning, hu]⟩
  cases ending with
  | struckBeforeRestore => exact hnone hread
  | struckAfterRestore => exact hnone hrestore
  | completes =>
    have huncut : (s.readStraps straps).restore.cut = none :=
      (State.restore_startup _).2.2.2.2.2.2.trans ((State.readStraps_startup straps s).2.2.2.2.2.trans hcut)
    simp only [State.runStarting, State.leaveStarting]
    split
    · exact hnone hrestore
    · split
      · exact hnone hrestore
      · have hsc := (State.enterRunning_uncut (s := (s.readStraps straps).restore.startReceiver) levels huncut).1
        refine ⟨State.PendingHeld.enterRunning ?_ levels, fun _ => by rw [hsc]⟩
        exact .of_none hrestore

/-- A course from between commands leaves a pending frame to a held capture in RUNNING. -/
theorem Course.keepsPending {s t : State} (course : Course s t) (hstart : s.StartupSound) (hheld : s.PendingHeld)
    (hrunning : s.PendingRunning) : t.PendingHeld ∧ t.PendingRunning := by
  have hmove {u v : State} (m : Move u v) (hu : u.StartupSound ∧ u.PendingHeld ∧ u.PendingRunning) :
      v.StartupSound ∧ v.PendingHeld ∧ v.PendingRunning :=
    ⟨m.keepsStartup hu.1, m.keepsPendingHeld hu.2.1, m.keepsPendingRunning hu.1.uncut hu.2.2⟩
  have hreset {u : State} (hu : u.cc.pendingTrigger = none) : u.PendingHeld ∧ u.PendingRunning :=
    ⟨.of_none hu, by simp [State.PendingRunning, hu]⟩
  cases course with
  | moves run => exact (run.keeps hmove ⟨hstart, hheld, hrunning⟩).2
  | starting straps ending levels held watched hop =>
    obtain ⟨hw, -, hwpending⟩ := watched.keeps hmove ⟨hstart.unheld, hheld, hrunning⟩
    have hstarting := hop (hstart.heldStarts held)
    exact State.runStarting_pending (by simpa [State.PendingRunning, hstarting] using hwpending) hw.uncut straps ending
      levels
  | powerOn => exact hreset rfl
  | resetBetween => exact hreset rfl
  | resetWithin => exact hreset rfl

/-- Settles O23: the record apart from its pending frame in every course, and the frame in those that no reset cuts. -/
theorem stepKeepsTheCaptureSound : Obligations.StepKeepsTheCaptureSound := by
  intro s t h hstart hr hstep
  obtain ⟨rest, hcourse⟩ := step_course hstep
  obtain ⟨hcore, hheld, hrunning⟩ := State.captureSound_iff.mp h
  obtain ⟨hheld', hrunning'⟩ := hcourse.keepsPending (hstart.of_standing rfl) hheld hrunning
  exact State.captureSound_iff.mpr ⟨hcourse.keepsCore hstart.heldStarts hr (hcore.of_view rfl), hheld', hrunning'⟩

end Sys2Proof.Machine
end

section
/-!
The machine: a step, its command and its queue, the first state, and time (R18, R46, R102, R103).
-/

namespace Sys2Proof.Machine

/-! ## Steps and the queue -/

/-- Settles O1: by the definition of a step. -/
theorem stepRunsTheFrontCommand : Obligations.StepRunsTheFrontCommand := fun _ _ _ => rfl

/-- No move touches the queue of waiting commands. -/
theorem Move.pending {s t : State} (m : Move s t) : t.pending = s.pending := by
  cases m with
  | checkReference time c => exact State.checkReference_pending s time c
  | enterRunning levels => exact State.enterRunning_pending s levels
  | stage src => exact State.stage_pending s src
  | endBatch drops => exact State.endBatch_pending s drops
  | _ => simp

theorem Course.pending {s t : State} (course : Course s t) : t.pending = s.pending := by
  have hmoves {u v : State} (run : Moves u v) : v.pending = u.pending :=
    run.keeps (P := fun w => w.pending = u.pending) (fun m hw => m.pending.trans hw) rfl
  induction course with
  | moves run => exact hmoves run
  | starting straps ending levels _ watched =>
    have hread := State.readStraps_pending
    have hw := hmoves watched
    cases ending with
    | completes =>
      exact (State.leaveStarting_pending _ _).trans ((State.restore_pending _).trans ((hread _ _).trans hw))
    | struckBeforeRestore => exact (hread _ _).trans hw
    | struckAfterRestore => exact (State.restore_pending _).trans ((hread _ _).trans hw)
  | powerOn => rfl
  | resetBetween cause inside run =>
    have hrun := hmoves run
    exact hrun
  | resetWithin cause inside passed run found ih =>
    have hrun := hmoves run
    exact ih.trans hrun

/-- Settles O2: every command answers a next state, and its course leaves the queue. -/
theorem everyCommandCompletesAndLeavesTheQueue : Obligations.EveryCommandCompletesAndLeavesTheQueue := by
  intro c s
  obtain ⟨t, hnext, hcourse⟩ := exec_leads c s
  exact ⟨t, hnext, hcourse.pending⟩

/-! ## Time -/

theorem State.advance_held {s : State} (h : s.sc.resetHeld = true) (n : Nat) : s.advance n = s := by
  simp [State.advance, h]

theorem State.advance_running {s : State} (h : s.sc.resetHeld = false) (n : Nat) : s.advance n = { s with
    tu := { s.tu with elapsed := s.tu.elapsed + n, timeCount := min (s.tu.timeCount + n) timeTop } } := by
  simp [State.advance, h]

theorem step_empty {s : State} (h : s.pending = []) : step s = .next (s.advance 1) := by
  unfold step
  rw [h]

/-- Settles O4: the two branches of the passing of time, and the count carried to its top. -/
theorem timeRunsAndTheCountHoldsAtItsTop : Obligations.TimeRunsAndTheCountHoldsAtItsTop := by
  refine ⟨⟨fun s n h => State.advance_running h n, fun s n h => State.advance_held h n, fun s h hmax => ?_⟩,
    fun s hempty => ⟨fun h => ?_, fun h => ?_⟩⟩
  · refine ⟨_, rfl, ?_, fun n => ?_⟩
    · rw [State.advance_running h, Nat.add_sub_cancel' hmax, Nat.min_self, Nat.add_comm]
    · rw [State.advance_running (by simpa using h), State.advance_running h]
      simp only [timeTop] at *
      omega
  · rw [step_empty hempty, State.advance_running h]
  · rw [step_empty hempty, State.advance_held h]

/-- No move takes the time count back or beyond its top (R102). -/
theorem Move.timeCount {s t : State} (m : Move s t) (h : s.tu.timeCount ≤ timeTop) :
    s.tu.timeCount ≤ t.tu.timeCount ∧ t.tu.timeCount ≤ timeTop := by
  have hsame (u : State) (e : u.tu.timeCount = s.tu.timeCount) :
      s.tu.timeCount ≤ u.tu.timeCount ∧ u.tu.timeCount ≤ timeTop := ⟨e.ge, e.le.trans h⟩
  have kept : State.KeptByEvents fun u => u.tu.timeCount = s.tu.timeCount :=
    ⟨by simp, by simp, by simp, by simp, by simp [State.strike]⟩
  cases m with
  | writeHeard d => exact hsame _ (kept.writeHeard d rfl)
  | checkReference time c =>
    exact hsame _ (kept.checkReference time c rfl (fun _ _ hu => hu) (fun _ hu => hu) fun _ _ _ hu => hu)
  | timeUnit tu hcount => exact hcount h
  | enterRunning levels =>
    exact hsame _ (kept.enterRunning levels (by simp [State.opened]) (fun _ hu => hu) fun _ _ _ _ _ hu => hu)
  | stage src => rw [State.stage_eq]; exact hsame _ rfl
  | endBatch drops => rw [State.endBatch_eq]; exact hsame _ rfl
  | _ => exact hsame _ (by simp)

/-- Settles O5: no move takes the count back; between two resets no course holds or ends one. -/
theorem timeCountNeverFallsBetweenResets : Obligations.TimeCountNeverFallsBetweenResets := by
  intro c s t hmax hheld hexec hheld'
  obtain ⟨_, hnext, hcourse⟩ := exec_leads c s
  cases hexec.symm.trans hnext
  cases hcourse with
  | moves run =>
    refine run.keeps (P := fun u => s.tu.timeCount ≤ u.tu.timeCount ∧ u.tu.timeCount ≤ timeTop) (fun m hu => ?_)
      ⟨le_rfl, hmax⟩
    exact ⟨hu.1.trans (m.timeCount hu.2).1, (m.timeCount hu.2).2⟩
  | starting _ _ _ held => simp [hheld] at held
  | powerOn => cases hheld'
  | resetBetween => cases hheld'
  | resetWithin => cases hheld'

/-! ## The first state -/

/-- Settles O3: each field by evaluation. -/
theorem firstStateIsAPowerOnReset : Obligations.FirstStateIsAPowerOnReset := by
  refine ⟨rfl, rfl, rfl, rfl, rfl, rfl, fun _ => List.eq_of_mem_replicate, rfl, rfl, rfl, rfl, rfl, rfl, rfl,
    fun _ => List.eq_of_mem_replicate, rfl, rfl, rfl, fun _ => List.eq_of_mem_replicate, ?_⟩
  repeat' constructor

/-- Settles O11: each invariant from the reset values. -/
theorem firstStateIsSound : Obligations.FirstStateIsSound := by
  refine ⟨Ring.Sound.emptied (r := Ring.initial) List.length_replicate, Router.Sound.initial, ?_, ?_, ?_,
    .profileOf false, ?_, ?_⟩
  · exact State.captureSound_iff.mpr
      ⟨.of_unheld (by decide) rfl rfl (Nat.zero_le _) rfl rfl, by simp [State.reset], by simp [State.reset]⟩
  · constructor <;> simp [State.reset, Conditions.empty, Scanner.initial, LineController.initial, PeerMonitor.initial]
  · refine .of_idle (LineController.idle_of_line (.inr rfl)) (by decide) (Nat.zero_le _) (Nat.zero_le _) (Nat.zero_le _)
      (Nat.zero_le _) ?_ (by decide)
    intro src
    cases src <;> decide
  · exact (State.startupSound_iff_of_starting rfl).mpr ⟨rfl, rfl, rfl, rfl⟩
  · exact ⟨by decide, rfl, rfl, rfl, by decide, by simp [State.reset, Scanner.initial]⟩

/-! ## CAPT (R24) -/

theorem State.beginRetaining_capt (cause : ResetCause) (inside : Bool) (s : State) :
    (s.beginRetaining cause inside).capt = false := rfl

/-- Settles O22: CAPT is a view of the capture state, and every reset holds it. -/
theorem captIsActiveWhileACaptureIsHeld : Obligations.CaptIsActiveWhileACaptureIsHeld := by
  refine ⟨fun s h => ?_, fun s h => by simp [State.capt, h], fun c s t hc hexec => ?_⟩
  · simp only [State.capt, h, Bool.not_false, Bool.true_and]
    cases s.cc.record.st <;> simp
  · rcases hc with rfl | ⟨struck, rfl | rfl⟩
    · cases hexec; rfl
    · cases hexec; rfl
    · cases hexec; rfl

end Sys2Proof.Machine
end

section
/-!
Writes to the ring, and the Event Router (R4, R5, R8, R37, R39, R44, R85 to R88, R97 to R101, R117).
-/

namespace Sys2Proof.Machine

/-! ## Writes -/

/-- Settles O6: a taken write stores the entry, and counting it leaves the ring. -/
theorem plainWriteStoresTheNextEntry : Obligations.PlainWriteStoresTheNextEntry := by
  intro s d hr hop hfrozen hlt
  have hn : s.hr.nextSeq ≠ seqLimit := hlt.ne
  have hring := State.countPost_store s d
  have hnewest : (s.hr.newest + 1) % 512 = (s.hr.nextSeq - 1) % 512 := by
    have := hr.newestAt
    have := hr.heldBelow
    simp only [ringSize] at *
    omega
  refine ⟨_, State.write_taken d hop hfrozen hn, ?_⟩
  rw [hring]
  refine ⟨rfl, rfl, rfl, rfl, ?_, hnewest, fun p hp => ?_, ?_, fun hpost => ?_⟩
  · have := Ring.store_entry hr d
    rwa [← hnewest] at this
  · exact List.getElem?_set_ne (Ne.symm hp)
  · have hframe := State.countPost_frame { s with hr := s.hr.store d }
    rwa [hring] at hframe
  · have hplain := State.write_plain d hop hfrozen hpost hn
    rw [State.write_taken d hop hfrozen hn] at hplain
    rw [(Prod.mk.inj hplain).1]

/-- Settles O7: the cases of a write. -/
theorem writesAreRefusedOrCountTowardsTheFreeze : Obligations.WritesAreRefusedOrCountTowardsTheFreeze := by
  refine ⟨⟨fun s d hop => State.write_notRunning d hop, fun s d hop hfrozen => State.write_frozen d hop hfrozen⟩,
    fun s d cur hop hst hlt => ⟨fun hc => State.write_post d hop hst hlt.ne hc, fun since hc hclock => ?_⟩⟩
  rw [State.write_post_last d hop hst hlt.ne hc, hclock]
  rfl

/-- The ring after a sequence restart: SEQUENCE_RESTART at position 0, the pending entry at position 1 (R8). -/
theorem Ring.restarted (r : Ring) (hsize : r.positions.length = 512) (first second : Draft) :
    ((r.emptied.store first).store second).held = 2 ∧ ((r.emptied.store first).store second).nextSeq = 3 ∧
      ((r.emptied.store first).store second).newest = 1 ∧
      ((r.emptied.store first).store second).check = .matching ∧
      ((r.emptied.store first).store second).positions[0]? = some (some { seq := 1, body := first }) ∧
      ((r.emptied.store first).store second).positions[1]? = some (some { seq := 2, body := second }) := by
  simp [Ring.store, Ring.emptied, ringSize, hsize]

/-- The loss of a capture in POST (R44). -/
theorem State.loseCapture_post {s : State} (h : s.cc.record.st.isPost = true) :
    s.loseCapture = s.clearRecord.withdrawTrigger := by
  unfold State.loseCapture
  rw [if_pos ((CaptureState.held_iff _).mpr (.inl h))]

theorem State.loseCapture_unheld {s : State} (h : s.cc.record.st.held = false) : s.loseCapture = s := by
  unfold State.loseCapture
  rw [if_neg (by simp [h])]

theorem State.withdrawTrigger_eq (s : State) : s.withdrawTrigger = { s with
    cc := { s.cc with pendingTrigger := none }
    lc := if s.cc.pendingTrigger.isSome then s.lc.endItem .trigger else s.lc } := by
  unfold State.withdrawTrigger
  split
  case h_1 h =>
    simp only [h, Option.isSome_none, Bool.false_eq_true, if_false]
    rw [← h]
  case h_2 t h => simp [h]

/-- Settles O8: what a sequence restart makes of the ring, and of a capture in POST. -/
theorem sequenceRestartBeginsTheRingAgain : Obligations.SequenceRestartBeginsTheRingAgain := by
  intro s d hsize hop hfrozen hn
  refine ⟨_, State.write_restart d hop hfrozen hn, ?_⟩
  cases hpost : s.cc.record.st.isPost with
  | false =>
    have hheld : s.cc.record.st.held = false := by cases hst : s.cc.record.st <;> simp_all
    rw [State.sequenceRestart_unheld d hheld]
    obtain ⟨hheld', hseq, hnewest, hcheck, h0, h1⟩ :=
      Ring.restarted s.hr hsize (s.ownDraft s.tu.timeCount .sequenceRestart none none none) d
    exact ⟨hheld', hseq, hnewest, hcheck, h0, h1, rfl, by simp, fun _ => ⟨rfl, rfl⟩⟩
  | true =>
    have hlost : State.loseCapture { s with hr := s.hr.emptied } =
        State.withdrawTrigger (State.clearRecord { s with hr := s.hr.emptied }) := State.loseCapture_post hpost
    simp only [State.sequenceRestart, hlost, State.withdrawTrigger_eq]
    obtain ⟨hheld', hseq, hnewest, hcheck, h0, h1⟩ :=
      Ring.restarted s.hr hsize (s.ownDraft s.tu.timeCount .sequenceRestart none none none) d
    exact ⟨hheld', hseq, hnewest, hcheck, h0, h1, rfl, fun _ => ⟨rfl, rfl⟩, by simp⟩

end Sys2Proof.Machine
end

section
/-!
The Event Router: local events, and the records of heard frames (R85 to R88, R97 to R101, R117).
-/

namespace Sys2Proof.Machine

/-! ## The handling of a local event -/

/-- An event that is recorded, or opens RUNNING, is written, and its own seq is the one it took (R86). -/
theorem State.writeStep_recorded {e : LocalEvent} {s : State}
    (h : e.opening = true ∨ s.station.recordMask.getLsbD e.kind.class = true) :
    (s.writeStep e).1 = (s.write (s.ownDraft e.time e.kind e.subject e.value none)).1 ∧
      ∀ q, (s.writeStep e).2 = some q ↔ (s.write (s.ownDraft e.time e.kind e.subject e.value none)).2 = .taken q := by
  unfold State.writeStep
  rw [if_pos (by simpa using h)]
  split <;> simp_all

theorem State.writeStep_unrecorded {e : LocalEvent} {s : State} (hopening : e.opening = false)
    (hmask : s.station.recordMask.getLsbD e.kind.class = false) : s.writeStep e = (s, none) := by
  unfold State.writeStep
  rw [if_neg (by simp [hopening, hmask])]

/-- The write step leaves what the announce step looks at (R86, R87). -/
theorem State.writeStep_station (e : LocalEvent) (s : State) : (s.writeStep e).1.station = s.station := by
  simp [State.station]

/-- An announced event joins the queue while the queue holds fewer than 16, else it is a drop (R87). -/
theorem State.announceStep_appended {e : LocalEvent} {s : State} (ownSeq : Option Nat)
    (hmask : s.station.announceMask.getLsbD e.kind.class = true) (hroom : s.er.queue.length < queueSize) :
    s.announceStep e ownSeq = { s with er := { s.er with queue := s.er.queue ++
      [{ time := e.time, kind := e.kind, subject := e.subject, value := e.value, sync := s.tu.sync, ownSeq }] } } := by
  unfold State.announceStep
  rw [if_pos hmask, if_pos hroom]

theorem State.announceStep_dropped {e : LocalEvent} {s : State} (ownSeq : Option Nat)
    (hmask : s.station.announceMask.getLsbD e.kind.class = true) (hfull : 16 ≤ s.er.queue.length) :
    s.announceStep e ownSeq = { s with er := { s.er with drops := min (s.er.drops + 1) 255 } } := by
  unfold State.announceStep
  rw [if_pos hmask, if_neg (by simpa [queueSize] using hfull)]
  rfl

theorem State.announceStep_unannounced {e : LocalEvent} {s : State} (ownSeq : Option Nat)
    (hmask : s.station.announceMask.getLsbD e.kind.class = false) : s.announceStep e ownSeq = s := by
  unfold State.announceStep
  rw [if_neg (by simp [hmask])]

/-- Settles O12: the three steps of an event's handling, and the points where a reset strikes. -/
theorem localEventIsWrittenThenAnnounced : Obligations.LocalEventIsWrittenThenAnnounced := by
  refine ⟨fun s e hop => State.emit_notRunning e hop, fun s e hop hcut htrigger => ?_,
    fun s e cause time hop hcut htrigger => ?_,
    fun s w e hop hrecorded hunrecorded => ?_, fun s e hop hcut => State.emit_running e hop hcut⟩
  · have hemit : s.emit e = (s.writeStep e).1.announceStep e (s.writeStep e).2 := by
      rw [State.emit_running e hop hcut]
      unfold State.triggerStep
      rw [htrigger]
    have hstation := State.writeStep_station e s
    refine ⟨(s.writeStep e).1, (s.writeStep e).2, State.writeStep_recorded, fun hopening hmask => ?_, fun hmask hroom => ?_,
      fun hmask hfull => ?_, fun hmask => ?_⟩
    · simp [State.writeStep_unrecorded hopening hmask]
    · rw [hemit, State.announceStep_appended _ (by rwa [hstation]) (by rw [State.writeStep_er]; exact hroom)]
      simp
    · rw [hemit, State.announceStep_dropped _ (by rwa [hstation]) (by simpa using hfull)]
      simp
    · rw [hemit, State.announceStep_unannounced _ (by rwa [hstation])]
  · rw [State.emit_running _ hop hcut, State.emit_running _ hop hcut]
    unfold State.triggerStep
    rw [htrigger]
    rfl
  · have hw : (s.writeStep e).1 = w := by
      by_cases h : e.opening = true ∨ s.station.recordMask.getLsbD e.kind.class = true
      · rw [(State.writeStep_recorded h).1, hrecorded h]
        rfl
      · obtain ⟨hopening, hmask⟩ : e.opening = false ∧ s.station.recordMask.getLsbD e.kind.class = false := by
          simpa using h
        rw [State.writeStep_unrecorded hopening hmask, hunrecorded hopening hmask]
    have hsc : w.sc = s.sc := by rw [← hw]; simp
    refine ⟨fun hcut => ?_, fun h hcut hh => ?_, fun n hcut => ?_⟩
    · rw [State.emit_struck e hop hcut, hw, State.strike, hsc]
    · rw [State.emit_struckAtEnd e hop hcut, hh]
      rfl
    · simp [State.emit, hop, hcut]

/-! ## Heard frames -/

/-- The entries a heard frame asks the ring for: its GAP, if it reports drops, then its records (R97 to R99). -/
def State.heardDrafts (src : Nat) (e : EventFields) (s : State) : List Draft :=
  (if 0 < e.drops then [s.gapDraft src e.drops] else []) ++ e.records

/-- Those of the classes that the heard mask holds. -/
def State.hears (s : State) (d : Draft) : Bool := s.station.heardMask.getLsbD d.kind.class

theorem State.takeHeard_eq {s : State} (src : Nat) (e : EventFields) (hop : s.sc.op = .running) :
    s.takeHeard src e = (s.heardDrafts src e).foldl State.writeHeard s := by
  unfold State.takeHeard State.heardDrafts
  rw [if_pos hop]
  split <;> rfl

/-- Writing keeps the heard mask. -/
theorem State.write_hears (d : Draft) (s : State) : (s.write d).1.hears = s.hears := by
  funext x
  simp [State.hears, State.station]

/-- Where no reset strikes, the heard ones are written in order (R99). -/
theorem State.foldl_writeHeard_uncut (ds : List Draft) {s : State} (hcut : s.cut = none) :
    ds.foldl State.writeHeard s = (ds.filter s.hears).foldl (fun s d => (s.write d).1) s := by
  induction ds generalizing s with
  | nil => rfl
  | cons d ds ih =>
    rw [List.foldl_cons, State.writeHeard_uncut d hcut]
    cases hd : s.hears d with
    | true =>
      rw [if_pos (by simpa [State.hears] using hd), ih (by simpa using hcut), State.write_hears,
        List.filter_cons_of_pos hd, List.foldl_cons]
    | false =>
      rw [if_neg (by simpa [State.hears] using hd), ih hcut, List.filter_cons_of_neg (by simp [hd])]

/-- After a strike nothing more is written (R101). -/
theorem State.foldl_writeHeard_stopped (ds : List Draft) {s : State} (hop : s.sc.op ≠ .running) (hcut : s.cut = none) :
    ds.foldl State.writeHeard s = s := by
  induction ds with
  | nil => rfl
  | cons d ds ih =>
    rw [List.foldl_cons, State.writeHeard_uncut d hcut, State.write_notRunning d hop, ite_self, ih]

/-- The ring takes no notice of where a reset strikes (R15). -/
theorem State.foldl_write_withCut (ds : List Draft) (s : State) (c : Option Nat) :
    ds.foldl (fun s d => (s.write d).1) { s with cut := c } =
      { ds.foldl (fun s d => (s.write d).1) s with cut := c } := by
  induction ds generalizing s with
  | nil => rfl
  | cons d ds ih => rw [List.foldl_cons, List.foldl_cons, State.write_withCut, ih]

/-- Where a reset strikes between the writes, those before it are made and those after it are not (R19, R101). -/
theorem State.foldl_writeHeard_struck (ds : List Draft) {s : State} {made : Nat} (hcut : s.cut = some made)
    (hmade : made < (ds.filter s.hears).length) : ds.foldl State.writeHeard s =
      (((ds.filter s.hears).take (made + 1)).foldl (fun s d => (s.write d).1) s).strike := by
  induction ds generalizing s made with
  | nil => simp at hmade
  | cons d ds ih =>
    rw [List.foldl_cons]
    cases hd : s.hears d with
    | false =>
      have hsame : s.writeHeard d = s := by
        unfold State.writeHeard
        rw [if_neg (by simpa [State.hears] using hd)]
      rw [List.filter_cons_of_neg (by simp [hd])] at hmade ⊢
      rw [hsame, ih hcut hmade]
    | true =>
      have hpass : s.writeHeard d = (s.write d).1.passPoint := by
        unfold State.writeHeard
        rw [if_pos (by simpa [State.hears] using hd)]
      have hwcut : (s.write d).1.cut = some made := by simpa using hcut
      rw [List.filter_cons_of_pos hd] at hmade ⊢
      rw [hpass, State.passPoint, hwcut, List.take_succ_cons, List.foldl_cons]
      cases made with
      | zero => exact State.foldl_writeHeard_stopped ds (by simp [State.strike]) rfl
      | succ n =>
        have hmask : State.hears { (s.write d).1 with cut := some n } = s.hears := State.write_hears d s
        have hrest := ih (s := { (s.write d).1 with cut := some n }) rfl (by rw [hmask]; simpa using hmade)
        rw [hmask, State.foldl_write_withCut] at hrest
        exact hrest

/-- The heard ones among a frame's entries (R97 to R99). -/
theorem State.filter_heardDrafts (src : Nat) (e : EventFields) (s : State) : (s.heardDrafts src e).filter s.hears =
    (if 0 < e.drops ∧ s.station.heardMask.getLsbD 6 = true then [s.gapDraft src e.drops] else []) ++
      e.records.filter fun d => s.station.heardMask.getLsbD d.kind.class := by
  have hgap : s.hears (s.gapDraft src e.drops) = s.station.heardMask.getLsbD 6 := rfl
  unfold State.heardDrafts
  rw [List.filter_append]
  congr 1
  by_cases hdrops : 0 < e.drops <;> cases hmask : s.station.heardMask.getLsbD 6 <;>
    simp [hdrops, hgap, hmask, -BitVec.getLsbD_eq_getElem]

theorem State.foldl_writeHeard_er (ds : List Draft) (s : State) : (ds.foldl State.writeHeard s).er = s.er := by
  induction ds generalizing s with
  | nil => rfl
  | cons d ds ih => rw [List.foldl_cons, ih, State.writeHeard_er]

/-- A peer's address has an entry (R113). -/
theorem State.peer_eq {a : Nat} (ha : 1 ≤ a) (s : State) : s.peer a = s.pm.peers[a - 1]? := by
  unfold State.peer
  rw [if_neg (by omega)]

/-- Settles O13: a heard frame is the fold of its heard entries, whole or struck; and the repeat test. -/
theorem heardFrameWritesGapThenRecords : Obligations.HeardFrameWritesGapThenRecords := by
  refine ⟨⟨fun s src e hop => ?_, fun s src e hop hcut => ?_, fun s src e => ?_,
    fun s src made e ds t hop hds hcut hmade ht => ?_⟩, fun s a e p ha hp => ⟨fun hlast => ?_, fun hlast => ?_⟩⟩
  · simp [State.takeHeard, hop]
  · rw [State.takeHeard_eq src e hop, State.foldl_writeHeard_uncut _ hcut, State.filter_heardDrafts, List.foldl_append]
    split <;> rfl
  · by_cases hop : s.sc.op = .running
    · rw [State.takeHeard_eq src e hop, State.foldl_writeHeard_er]
    · simp [State.takeHeard, hop]
  · have hfilter : ds = (s.heardDrafts src e).filter s.hears := by rw [State.filter_heardDrafts]; exact hds
    rw [hfilter] at hmade ht
    rw [State.takeHeard_eq src e hop, State.foldl_writeHeard_struck _ hcut hmade, ← ht]
    rfl
  · simp [State.takeEvent, State.peer_eq ha, hp, hlast]
  · simp [State.takeEvent, State.peer_eq ha, hp, hlast, State.setPeer]

end Sys2Proof.Machine
end

section
/-!
The capture: origination, joining, comparison, withdrawal, release and its timers (R22 to R42).
-/

namespace Sys2Proof.Machine

/-! ## Entry to POST (R26, R31) -/

/-- Entry to POST from ARMED, the mark written plainly or as a sequence restart (R8, R26 steps 3 and 4, R31). -/
theorem State.enterPost_eq {s : State} (z : TimedTag) (cause : Cause) (hop : s.sc.op = .running)
    (harmed : s.cc.record.st = .armed) (hmax : s.hr.nextSeq ≤ seqLimit) {seq : Nat} {ring : Ring} {mark : Draft}
    (hmark : mark = s.captureDraft .triggerMark z (.marked cause))
    (hplain : s.hr.nextSeq < seqLimit → ring = s.hr.store mark ∧ seq = s.hr.nextSeq)
    (hrestart : s.hr.nextSeq = seqLimit →
      ring = (s.hr.emptied.store (s.ownDraft s.tu.timeCount .sequenceRestart none none none)).store mark ∧ seq = 2) :
    s.enterPost z cause = { s with
      hr := ring
      cc := { s.cc with
        record :=
          { st := .post { tag := z.tag, triggerTime := z.time, cause, markSeq := seq }
            postWritten := 0, retag := 0, seen := [], overflow := false, unrecorded := 0 }
        postClock := some (.running s.tu.elapsed)
        frozenClock := none } } := by
  rcases hmax.lt_or_eq with hlt | hlimit
  · obtain ⟨rfl, rfl⟩ := hplain hlt
    rw [State.enterPost_armed z cause hop harmed hlt.ne, hmark]
  · obtain ⟨rfl, rfl⟩ := hrestart hlimit
    rw [State.enterPost_restart z cause hop harmed hlimit, hmark]

theorem State.requestTrigger_armed {s : State} (harmed : s.cc.record.st = .armed) (cause : Cause) (time : Option Nat) :
    s.requestTrigger cause time = s.originate cause (time.getD s.tu.timeCount) := by
  unfold State.requestTrigger
  rw [harmed]

theorem State.requestTrigger_ignored {s : State} (h : s.cc.record.st ≠ .armed) (cause : Cause) (time : Option Nat) :
    s.requestTrigger cause time = s := by
  unfold State.requestTrigger
  split
  case h_2 harmed => exact absurd harmed h
  all_goals rfl

/-- Settles O16: outside ARMED the request is ignored; in ARMED it is the entry to POST with a frame pending. -/
theorem triggerRequestOriginatesInArmedAlone : Obligations.TriggerRequestOriginatesInArmedAlone := by
  refine ⟨fun s cause time h => State.requestTrigger_ignored h cause time, ?_⟩
  rintro s cause time serial at' seq mark ring hop harmed hmax rfl rfl hmark hplain hrestart
  rw [State.requestTrigger_armed harmed, State.originate]
  have hpost := State.enterPost_eq (s := { s with cc := { s.cc with serial := cyclicNext s.cc.serial } })
    { tag := { origin := s.address, serial := cyclicNext s.cc.serial }, time := time.getD s.tu.timeCount } cause hop
    harmed hmax hmark hplain hrestart
  dsimp only
  rw [hpost]
  rfl

/-! ## Tags from peers (R30 to R32) -/

theorem CaptureState.held_cases {st : CaptureState} (h : st.held = true) :
    (∃ cur, st = .post cur) ∨ ∃ cur why, st = .frozen cur why := by
  cases st <;> simp_all

/-- Settles O17: what each operating and capture state makes of a peer's tag. -/
theorem peersAreJoinedInArmedAlone : Obligations.PeersAreJoinedInArmedAlone := by
  refine ⟨⟨fun s z h => ?_, fun s code tag h => ?_⟩, fun s z hop hheld => ?_, fun s hop => ⟨fun code => ?_, ?_⟩, ?_⟩
  · rcases h with h | h <;> simp [State.takeTrigger, h]
  · rcases h with h | h
    · simp [State.takeGossip, h]
    · cases tag <;> simp [State.takeGossip, h]
  · rcases CaptureState.held_cases hheld with ⟨cur, hst⟩ | ⟨cur, why, hst⟩ <;>
      simp [State.takeTrigger, State.takeGossip, hop, hst]
  · simp [State.takeGossip, hop]
  · intro harmed code tag hcode
    cases tag with
    | none => simp [State.takeGossip, hop]
    | some z => cases code <;> simp_all [State.takeGossip]
  · intro s t z cause seq mark ring hop harmed hmax hjoin hmark hplain hrestart
    have ht : t = s.enterPost z cause := by
      rcases hjoin with ⟨rfl, rfl⟩ | ⟨rfl, rfl⟩
      · simp [State.takeTrigger, hop, harmed]
      · simp [State.takeGossip, hop, harmed]
    rw [ht]
    exact State.enterPost_eq z cause hop harmed hmax hmark hplain hrestart

/-! ## Withdrawal (R28, R136) -/

/-- Settles O19: the end of the TRIGGER item, on each line state. -/
theorem withdrawalGivesUpAStagingOnly : Obligations.WithdrawalGivesUpAStagingOnly := by
  intro s
  refine ⟨fun h => ?_, fun h => ⟨(s.lc.endItem .trigger).line, ?_, ?_, ?_, ?_⟩⟩
  · unfold State.withdrawTrigger
    rw [h]
  · rw [State.withdrawTrigger_eq, if_pos (Option.isSome_iff_ne_none.mpr h)]
    rfl
  · intro since out hline hsrc
    simp [LineController.endItem, hline, hsrc]
  · intro since out hline hsrc
    simp [LineController.endItem, hline, hsrc, Attempts.get]
  · intro hstaged hsent
    cases hline : s.lc.line with
    | staged since out => simp [LineController.endItem, hline, hstaged since out hline]
    | transmitting since out w =>
      cases w with
      | none => simp [LineController.endItem, hline, hsent since out hline]
      | some k => simp [LineController.endItem, hline]
    | _ => simp [LineController.endItem, hline]

/-! ## Release (R41, R42) -/

theorem State.release_frozen {s : State} {cur : Current} {why : FreezeReason} (reason : ReleaseReason)
    (hst : s.cc.record.st = .frozen cur why) : s.release reason =
      (s.withdrawTrigger.clearRecord.write (s.withdrawTrigger.clearRecord.captureDraft .captureReleased cur.timedTag
        (.released s.cc.record.unrecorded reason))).1 := by
  unfold State.release
  rw [hst]

/-- Settles O20: withdrawal, clearing and one write, refused in SETUP, plain or a sequence restart in RUNNING. -/
theorem releaseClearsTheRecordAndReportsIt : Obligations.ReleaseClearsTheRecordAndReportsIt := by
  intro s cur why reason w entry hst hw hentry
  have hclear : s.withdrawTrigger.clearRecord = w := by
    rw [hw, State.withdrawTrigger_eq]
    rfl
  have hdraft : w.captureDraft .captureReleased cur.timedTag (.released s.cc.record.unrecorded reason) = entry := by
    rw [hentry, hw, State.withdrawTrigger_eq]
    rfl
  have hheld : w.cc.record.st.held = false := by rw [← hclear]; exact State.clearRecord_held _
  have hfields : w.sc.op = s.sc.op ∧ w.hr.nextSeq = s.hr.nextSeq := by rw [hw]; simp
  have hnot : w.cc.record.st.isFrozen = false ∧ w.cc.record.st.isPost = false := by
    cases h : w.cc.record.st <;> simp_all
  rw [State.release_frozen reason hst, hclear, hdraft]
  refine ⟨fun hop => ?_, fun hop hlt => ?_, fun hop hlimit => ?_⟩
  · rw [State.write_notRunning _ (by simp [hfields, hop])]
  · rw [State.write_plain _ (hfields.1.trans hop) hnot.1 hnot.2 (by rw [hfields.2]; exact hlt.ne), hw]
    simp [Ring.store]
  · rw [State.write_restart _ (hfields.1.trans hop) hnot.1 (hfields.2.trans hlimit), State.sequenceRestart_unheld _ hheld,
      hw]
    simp [Ring.store, Ring.emptied, State.ownDraft, State.address]

/-! ## Comparison (R33 to R35) -/

/-- The state that a comparison leaves before its write: an adoption, or an addition to the seen list (R33, R34). -/
def State.compared (z : TimedTag) (cur : Current) (s : State) : State :=
  if z.earlier cur.timedTag then (s.setRecord (s.cc.record.adopt cur z)).withdrawTrigger
  else s.setRecord (s.cc.record.see z)

/-- A known tag changes nothing (R33 step 1). -/
theorem State.compare_known {s : State} {z : TimedTag} {cur : Current} (hcur : s.cc.record.st.current = some cur)
    (h : z.tag = cur.tag ∨ z.tag ∈ s.cc.record.seen.map (·.tag)) : s.compare z = s := by
  unfold State.compare
  simp only [hcur]
  rw [if_pos]
  rcases h with htag | hseen
  · simp [htag]
  · obtain ⟨x, hx, hxtag⟩ := List.mem_map.mp hseen
    rw [Bool.or_eq_true]
    exact .inr (List.any_eq_true.mpr ⟨x, hx, by simpa using hxtag⟩)

/-- Any other tag is compared by its order, and written in POST while the seen list has room (R33, R34). -/
theorem State.compare_new {s : State} {z : TimedTag} {cur : Current} (hcur : s.cc.record.st.current = some cur)
    (htag : z.tag ≠ cur.tag) (hseen : z.tag ∉ s.cc.record.seen.map (·.tag)) :
    s.compare z = (s.compared z cur).writeSeen s.cc.record.st.isPost (decide (s.cc.record.seen.length < seenSize)) z
      (z.earlier cur.timedTag) := by
  have hnew : ¬(cur.tag == z.tag || s.cc.record.seen.any fun t => t.tag == z.tag) = true := by
    simpa [Ne.symm htag] using hseen
  unfold State.compare State.compared
  simp only [hcur]
  rw [if_neg hnew]
  cases z.earlier cur.timedTag <;> rfl

/-- The seen list holds 6 tags at most; a full list stores nothing but the overflow (R34). -/
theorem CaptureRecord.see_fields (r : CaptureRecord) (z : TimedTag) : r.see z = { r with
    seen := if r.seen.length < 6 then r.seen ++ [z] else r.seen
    overflow := if r.seen.length < 6 then r.overflow else true } := by
  by_cases h : r.seen.length < 6 <;> simp [CaptureRecord.see, seenSize, h]

/-- The state after an adoption: POST or FROZEN as before, with the adopted tag and its time (R33 step 2). -/
theorem CaptureRecord.adopt_fields {r : CaptureRecord} {cur : Current} (hcur : r.st.current = some cur) (z : TimedTag) :
    r.adopt cur z = { r.see cur.timedTag with
      st := if r.st.isPost = true then .post { cur with tag := z.tag, triggerTime := z.time }
        else match r.st with
          | .frozen _ reason => .frozen { cur with tag := z.tag, triggerTime := z.time } reason
          | other => other
      retag := min (r.retag + 1) 255 } := by
  unfold CaptureRecord.adopt
  cases hst : r.st with
  | post c =>
    rw [hst] at hcur
    cases hcur
    rfl
  | frozen c reason =>
    rw [hst] at hcur
    cases hcur
    rfl
  | _ => simp [hst] at hcur

/-- Settles O18: nothing for a known tag; an adoption or an addition, then the write. -/
theorem comparisonAdoptsTheEarlierTag : Obligations.ComparisonAdoptsTheEarlierTag := by
  intro s z cur hcur
  refine ⟨State.compare_known hcur, fun htag hseen => ⟨s.compared z cur, fun hearlier => ?_, fun hlater => ?_, ?_⟩⟩
  · unfold State.compared
    rw [if_pos (show z.earlier cur.timedTag = true from hearlier), CaptureRecord.adopt_fields hcur,
      CaptureRecord.see_fields]
    rfl
  · unfold State.compared
    rw [show z.earlier cur.timedTag = false from hlater, CaptureRecord.see_fields]
    rfl
  · rw [State.compare_new hcur htag hseen]
    unfold State.writeSeen
    simp only [Bool.and_eq_true, decide_eq_true_eq]
    rfl

/-! ## The capture timers (R38, R40) -/

/-- The freezing of a capture in POST whose post elapsed runs (R37, R38). -/
theorem State.freeze_post {s : State} {cur : Current} {since : Nat} (reason : FreezeReason)
    (hst : s.cc.record.st = .post cur) (hclock : s.cc.postClock = some (.running since)) : s.freeze reason = { s with
      hr := { s.hr with check := .matching }
      cc := { s.cc with
        record := { s.cc.record with st := .frozen cur reason }
        postClock := some (.stopped (s.tu.elapsed - since))
        frozenClock := some (.running s.tu.elapsed) } } := by
  unfold State.freeze
  rw [hst, hclock]
  rfl

/-- Settles O21: the two expiries by the capture state and its durations. -/
theorem captureTimersFreezeAndRelease : Obligations.CaptureTimersFreezeAndRelease := by
  refine ⟨⟨fun s cur since w hst hclock hw => ?_, fun s hpost => ?_⟩, fun s cur why since hst hclock => ⟨?_, ?_⟩⟩
  · subst hw
    show execPostTimeExpiry s = _
    unfold execPostTimeExpiry
    simp only [hst, hclock]
    rw [State.freeze_post (s := s.advanceTo _) .timeElapsed (by simpa using hst) (by simpa using hclock)]
    simp only [State.advanceTo_hr, State.advanceTo_cc, tenMs]
  · show execPostTimeExpiry s = _
    unfold execPostTimeExpiry
    split
    · simp_all
    · rfl
  · intro hlimit
    show execHoldLimitExpiry s = _
    unfold execHoldLimitExpiry
    simp only [hst, hclock, hlimit, if_true]
  · intro hlimit
    show execHoldLimitExpiry s = _
    unfold execHoldLimitExpiry
    simp only [hst, hclock, hlimit.ne', if_false]
    rfl

end Sys2Proof.Machine
end

section
/-!
The event inputs (chapter 3): edges, qualified changes and the inputs' own timers.
-/

namespace Sys2Proof.Machine

/-! ## What the passing of time and an event leave of the inputs -/

@[simp] theorem State.advance_input (n k : Nat) (s : State) : (s.advance n).input k = s.input k := by
  simp [State.input]

@[simp] theorem State.advanceTo_input (m k : Nat) (s : State) : (s.advanceTo m).input k = s.input k :=
  State.advance_input _ k s

@[simp] theorem State.advance_inputSetting (n k : Nat) (s : State) : (s.advance n).inputSetting k = s.inputSetting k := by
  simp [State.inputSetting]

@[simp] theorem State.advanceTo_inputSetting (m k : Nat) (s : State) :
    (s.advanceTo m).inputSetting k = s.inputSetting k := State.advance_inputSetting _ k s

@[simp] theorem State.emit_inputSetting (e : LocalEvent) (k : Nat) (s : State) :
    (s.emit e).inputSetting k = s.inputSetting k := by
  simp [State.inputSetting]

/-- An input is observed in RUNNING unless its sensitivity is OFF (R48). -/
theorem State.observes_iff {n : Nat} {s : State} :
    s.observes n = true ↔ s.sc.op = .running ∧ (s.inputSetting n).sensitivity ≠ .off := by
  simp [State.observes]

theorem State.advance_observes (n k : Nat) (s : State) : (s.advance n).observes k = s.observes k := by
  simp [State.observes]

/-! ## Edges (R51 to R53) -/

theorem State.edge_return {n : Nat} {s : State} {level : Bool} {q : Qualification} (hlevel : (s.input n).level = some level)
    (hqual : (s.input n).qual = some q) : s.edge n = s.setInput n { s.input n with qual := none } := by
  unfold State.edge
  simp only [hlevel, hqual]

theorem State.edge_first {n : Nat} {s : State} {level : Bool} (hlevel : (s.input n).level = some level)
    (hqual : (s.input n).qual = none) : s.edge n =
      if (s.inputSetting n).qualify = 0 then s.qualifiedChange n (!level) s.tu.timeCount
      else s.setInput n
        { s.input n with qual := some { edgeTime := s.tu.timeCount, target := !level, since := s.tu.elapsed } } := by
  unfold State.edge
  simp only [hlevel, hqual]

/-- Settles O24: an edge by the qualification of its input, and the expiry of a qualification. -/
theorem edgesStartAndEndQualifications : Obligations.EdgesStartAndEndQualifications := by
  refine ⟨?_, fun s n q hop hsetting hqual => ?_⟩
  · rintro s w dt n r rfl rfl
    have hedge (h : s.observes n = true) : exec (.inputEdge dt n) s = .next ((s.advance dt).edge n) := by
      show execInputEdge dt n s = _
      unfold execInputEdge
      dsimp only
      rw [if_pos (by rwa [State.advance_observes])]
    refine ⟨fun h => ?_, fun hop hsetting level hlevel => ?_⟩
    · have hnot : ¬ (s.observes n = true) := by
        rw [State.observes_iff]
        rintro ⟨hop, hsetting⟩
        exact h.elim (· hop) hsetting
      show execInputEdge dt n s = _
      unfold execInputEdge
      dsimp only
      rw [if_neg (by rwa [State.advance_observes])]
    · rw [hedge (State.observes_iff.mpr ⟨hop, hsetting⟩)]
      have hlevel' : ((s.advance dt).input n).level = some level := by simpa using hlevel
      refine ⟨fun q hqual => ?_, fun hqual hq => ?_, fun hqual hq => ?_⟩
      · rw [State.edge_return hlevel' (by simpa using hqual)]
        simp [State.setInput]
      · rw [State.edge_first hlevel' (by simpa using hqual), if_neg (by simpa using hq.ne')]
        simp [State.setInput]
      · rw [State.edge_first hlevel' (by simpa using hqual), if_pos (by simpa using hq)]
  · show execQualifyTimeExpiry n s = _
    unfold execQualifyTimeExpiry
    rw [State.observes_iff.mpr ⟨hop, hsetting⟩, hqual]
    rfl

/-! ## Qualified changes (R54 to R60) -/

/-- The repeat timer starts at the active level, if R is not 0 (R48, R56). -/
theorem InputSetting.startRepeat_eq (x : InputSetting) (level : Bool) (now : Nat) : x.startRepeat level now =
    if ((x.sensitivity = .rise ∧ level = true) ∨ (x.sensitivity = .fall ∧ level = false)) ∧ 0 < x.repeatEvery then
      some { since := now, produced := 0 } else none := by
  unfold InputSetting.startRepeat
  congr 1
  cases x.sensitivity <;> cases level <;> simp [Sensitivity.active]

/-- The sensitive directions (R55). -/
theorem Sensitivity.reports_iff (x : Sensitivity) (level : Bool) :
    x.reports level = true ↔ (x = .rise ∧ level = true) ∨ (x = .fall ∧ level = false) ∨ x = .both := by
  cases x <;> cases level <;> simp [Sensitivity.reports]

theorem State.qualifiedChange_suspended {n : Nat} {s : State} {since : Nat} (h : (s.input n).mode = .suspended since)
    (level : Bool) (edgeTime : Nat) : s.qualifiedChange n level edgeTime =
      s.setInput n { level := some level, qual := none, mode := .suspended s.tu.elapsed } := by
  unfold State.qualifiedChange
  rw [h]

theorem State.qualifiedChange_normal {n : Nat} {s : State} {window : Option ChatterWindow} {old : Option RepeatTimer}
    (h : (s.input n).mode = .normal window old) (level : Bool) (edgeTime : Nat) {rep : Option RepeatTimer}
    (hrep : rep = (s.inputSetting n).startRepeat level s.tu.elapsed) : s.qualifiedChange n level edgeTime =
      ((s.setInput n { level := some level, qual := none, mode := .normal window rep }).changeEvent n level
        edgeTime).countChatter n level window rep := by
  unfold State.qualifiedChange
  rw [h, hrep]

/-- The change event leaves the input records (R55). -/
theorem State.changeEvent_fields (n : Nat) (level : Bool) (edgeTime k : Nat) (s : State) :
    (s.changeEvent n level edgeTime).iq = s.iq ∧ (s.changeEvent n level edgeTime).tu = s.tu ∧
      (s.changeEvent n level edgeTime).inputSetting k = s.inputSetting k := by
  unfold State.changeEvent
  dsimp only
  split <;> simp

/-- Settles O25: the two modes, and in NORMAL the four cases of the chatter count. -/
theorem qualifiedChangeIsProcessedByItsMode : Obligations.QualifiedChangeIsProcessedByItsMode := by
  refine ⟨fun s n edgeTime since level h => State.qualifiedChange_suspended h level edgeTime, ?_⟩
  rintro s n edgeTime level window old rep x w hmode rfl hrep hw
  have hw : (s.setInput n { level := some level, qual := none, mode := .normal window rep }).changeEvent n level
      edgeTime = w := by
    rw [hw]
    unfold State.changeEvent
    simp only [Sensitivity.reports_iff]
    rfl
  have hrep' : rep = (s.inputSetting n).startRepeat level s.tu.elapsed := by rw [InputSetting.startRepeat_eq, hrep]
  obtain ⟨hiq, htu, hsetting⟩ := State.changeEvent_fields n level edgeTime n
    (s.setInput n { level := some level, qual := none, mode := .normal window rep })
  rw [hw] at hiq htu hsetting
  have hset (u : State) (hu : u.iq = w.iq) (r : InputRecord) : u.setInput n r = { u with iq := s.iq.set n r } := by
    simp [State.setInput, hu, hiq]
  have hlimit : (w.inputSetting n).chatterLimit = (s.inputSetting n).chatterLimit := by rw [hsetting]; rfl
  have hnow : w.tu.elapsed = s.tu.elapsed ∧ w.tu.timeCount = s.tu.timeCount := by rw [htu]; exact ⟨rfl, rfl⟩
  rw [State.qualifiedChange_normal hmode level edgeTime hrep', hw]
  unfold State.countChatter
  simp only [hlimit, hnow.1, hnow.2]
  refine ⟨fun hzero => if_pos hzero, fun hpos hwindow => ?_, fun hpos c hwindow => ⟨fun hcount => ?_, fun hcount => ?_⟩⟩
  · subst hwindow
    rw [if_neg hpos.ne']
    exact hset w rfl _
  · rw [if_neg hpos.ne', hwindow]
    dsimp only
    rw [if_neg hcount]
    exact hset w rfl _
  · rw [if_neg hpos.ne', hwindow]
    dsimp only
    rw [if_pos hcount]
    exact hset _ (by simp) _

/-! ## The inputs' own timers (R57, R58, R61) -/

/-- Settles O26: the three expiries by the mode of their input. -/
theorem inputTimersReportPersistenceAndRest : Obligations.InputTimersReportPersistenceAndRest := by
  rintro s n x hop rfl hsetting
  have hobserves := State.observes_iff.mpr ⟨hop, hsetting⟩
  refine ⟨fun window rep w hmode hw => ?_, fun c rep hmode => ?_, fun since level w hmode hlevel hw => ?_⟩
  · show execRepeatTimerExpiry n s = _
    unfold execRepeatTimerExpiry
    simp only [hobserves, hmode, hw, State.setInput, State.advanceTo_iq, State.advanceTo_input]
    rfl
  · show execChatterWindowExpiry n s = _
    unfold execChatterWindowExpiry
    simp only [hobserves, hmode, State.setInput, State.advanceTo_iq, State.advanceTo_input]
    rfl
  · show execRestTimerExpiry n s = _
    unfold execRestTimerExpiry
    simp only [hobserves, hmode, hlevel, hw, State.setInput, State.emit_iq, State.advanceTo_iq, State.advanceTo_input,
      InputSetting.startRepeat_eq]
    cases level <;> rfl

end Sys2Proof.Machine
end

section
/-!
The analog scan (chapter 4): the start of a scan, its evaluation, and the reference check.
-/

namespace Sys2Proof.Machine

/-! ## The start of a scan (R67, R68, R70, R78) -/

/-- The moment a scan is due, with the next one a millisecond later (R67). -/
def State.atScan (due : Nat) (s : State) : State :=
  { s.advanceTo due with an := { s.an with nextScan := some (due + scanInterval) } }

theorem execScanStart_due {s : State} {due : Nat} (hop : s.sc.op = .running) (hdue : s.an.nextScan = some due)
    (hscan : s.an.scan = none) : execScanStart s = .next (s.atScan due).startScan := by
  unfold execScanStart State.atScan
  simp only [hop, hdue, hscan, State.advanceTo_an]

/-- The counted scan touches the scanner alone, and of it the positions and the draw (R70, R78). -/
theorem State.countScan_eq (s : State) : s.countScan = { s with an := s.countScan.an } := by
  unfold State.countScan
  dsimp only
  repeat' split
  all_goals rfl

theorem State.countScan_fields (s : State) : s.countScan.an.nextScan = s.an.nextScan ∧
    s.countScan.an.settled = s.an.settled ∧ s.countScan.an.channels = s.an.channels ∧
    s.countScan.an.reference = s.an.reference ∧
    s.countScan.an.checkPos = some (nextPosition checkCycle s.an.checkPos) := by
  unfold State.countScan
  dsimp only
  repeat' split
  all_goals exact ⟨rfl, rfl, rfl, rfl, rfl⟩

/-- With interval 0 there is no snapshot position and no draw (R78). -/
theorem State.countScan_off {s : State} (h : s.sc.config.analog.interval = 0) :
    s.countScan.an.intervalPos = s.an.intervalPos ∧ s.countScan.an.offset = s.an.offset ∧
      s.countScan.an.dither = s.an.dither := by
  unfold State.countScan
  dsimp only
  rw [if_pos h]
  exact ⟨rfl, rfl, rfl⟩

/-- The position in the interval, and the draw at position 1 (R78). -/
theorem State.countScan_position {s : State} {pos : Nat} (h : s.sc.config.analog.interval ≠ 0)
    (hpos : nextPosition s.sc.config.analog.interval s.an.intervalPos = pos) :
    s.countScan.an.intervalPos = some pos ∧
      (pos ≠ 1 → s.countScan.an.offset = s.an.offset ∧ s.countScan.an.dither = s.an.dither) ∧
      (pos = 1 → s.sc.config.analog.dither = false →
        s.countScan.an.offset = some 0 ∧ s.countScan.an.dither = s.an.dither) ∧
      (pos = 1 → s.sc.config.analog.dither = true → s.countScan.an.dither = ditherStep s.an.dither ∧
        s.countScan.an.offset = some (ditherStep s.an.dither % 16)) := by
  unfold State.countScan
  simp only [h, if_false, hpos]
  by_cases hone : pos = 1
  · cases hdither : s.sc.config.analog.dither <;> simp [hone]
  · simp [hone]

theorem State.startScan_counted {s : State} (h : s.an.settled = true) :
    s.startScan = { s with an := { s.countScan.an with scan := some (.counted s.tu.timeCount) } } := by
  unfold State.startScan
  rw [if_pos h]
  dsimp only
  rw [State.countScan_eq]

/-- Settles O27: the settling scan, and a counted one by its positions. -/
theorem scanStartCountsScansFromTheSecond : Obligations.ScanStartCountsScansFromTheSecond := by
  rintro s w due hop hdue hscan rfl
  have hstart : exec .scanStart s = .next (s.atScan due).startScan := execScanStart_due hop hdue hscan
  rw [hstart]
  refine ⟨fun hsettled => ?_, fun hsettled => ?_⟩
  · have hnot : ¬ (s.atScan due).an.settled = true := by simp [State.atScan, hsettled]
    unfold State.startScan
    rw [if_neg hnot]
    rfl
  · rw [State.startScan_counted (s := s.atScan due) hsettled]
    have hfields := (s.atScan due).countScan_fields
    have hconfig : (s.atScan due).sc.config = s.sc.config := by simp [State.atScan]
    have hoff := State.countScan_off (s := s.atScan due)
    have hposition {pos : Nat} := State.countScan_position (s := s.atScan due) (pos := pos)
    simp only [hconfig] at hoff hposition
    generalize (s.atScan due).countScan = u at hfields hoff hposition ⊢
    obtain ⟨hnext, hset, hchannels, href, hcheck⟩ := hfields
    refine ⟨_, rfl, rfl, hnext, hset.trans hsettled, rfl, hchannels, href, fun hnone => ?_, fun p hp => ?_, hoff,
      fun pos hinterval hpos => hposition hinterval.ne' ?_⟩
    · rw [hcheck, show (s.atScan due).an.checkPos = none from hnone]
      rfl
    · rw [hcheck, show (s.atScan due).an.checkPos = some p from hp]
      rfl
    · rcases hpos with ⟨hnone, rfl⟩ | ⟨p, hp, rfl⟩
      · rw [show (s.atScan due).an.intervalPos = none from hnone]
        rfl
      · rw [show (s.atScan due).an.intervalPos = some p from hp]
        rfl

/-! ## The reference check (R70 to R74) -/

/-- Settles O30: the reference state and whether the check fails. -/
theorem referenceFaultEndsAfterThreePasses : Obligations.ReferenceFaultEndsAfterThreePasses := by
  intro s time c fails hfails
  have hcheck : (decide (c.refH.toNat < refHighMin) || decide (refLowMax < c.refL.toNat)) = fails := hfails.symm
  refine ⟨fun href hf => ?_, fun href hf => ?_, fun passes href => ⟨fun hf => ?_, fun hf hp => ?_, fun hf hp => ?_⟩⟩ <;>
    subst hf <;> unfold State.checkReference <;> simp only [href, hcheck]
  · rfl
  · simp only [if_true, decide_eq_true_eq]
    rfl
  · rfl
  · simp [hp]
  · simp [hp]

/-! ## The evaluation of a scan (R68, R71, R73, R77, R78, R80) -/

/-- The snapshot scan of an interval (R78). -/
theorem State.snapshotDue_iff {s : State} : s.snapshotDue = true ↔
    s.sc.config.analog.interval ≠ 0 ∧ s.an.intervalPos ≠ none ∧
      s.an.intervalPos = s.an.offset.map (fun d => s.sc.config.analog.interval - d) := by
  unfold State.snapshotDue
  cases s.an.intervalPos <;> cases s.an.offset <;> simp

theorem execScanEvaluation_settling {s : State} {time : Nat} (h : s.an.scan = some (.settling time)) (dt : Nat)
    (c : Conversions) : execScanEvaluation dt c s = .next { s.advance dt with an := { s.an with scan := none } } := by
  unfold execScanEvaluation
  simp only [State.advance_an, h]

theorem execScanEvaluation_counted {s : State} {time : Nat} (h : s.an.scan = some (.counted time)) (dt : Nat)
    (c : Conversions) : execScanEvaluation dt c s =
      .next (State.evaluateScan time c { s.advance dt with an := { s.an with scan := none } }) := by
  unfold execScanEvaluation
  simp only [State.advance_an, h]

/-- A counted scan, once its reference result is known (R80). -/
theorem State.evaluateScan_eq {w v : State} {fault : Bool} {time : Nat} {c : Conversions}
    (hcheck : w.an.checkPos = some checkCycle → (v, fault) = w.checkReference time c)
    (hother : w.an.checkPos ≠ some checkCycle → v = w ∧ fault = decide (w.an.reference ≠ .healthy)) :
    w.evaluateScan time c = if fault then v
      else if w.snapshotDue then (v.evaluateChannels time c).snapshotChannels time c else v.evaluateChannels time c := by
  have hresult : (if w.an.checkPos = some checkCycle then w.checkReference time c
      else (w, decide (w.an.reference ≠ .healthy))) = (v, fault) := by
    split
    case isTrue h => exact (hcheck h).symm
    case isFalse h =>
      obtain ⟨rfl, rfl⟩ := hother h
      rfl
  unfold State.evaluateScan
  rw [hresult]

/-- What a channel's evaluation does, once the setting and the record are known (R75 to R77). -/
theorem State.evaluateChannel_enabled {s : State} {time reading ch : Nat} {x : ChannelSetting} {e record : Excursion}
    {transition : Option Transition} (hx : s.channelSetting ch = x) (henable : x.enable = true) (he : s.excursion ch = e)
    (hevaluate : e.evaluate x reading time = (record, transition)) : s.evaluateChannel time reading ch =
      match transition with
      | none => { s with an := { s.an with channels := s.an.channels.set ch record } }
      | some t => State.emit
          { time := t.time, kind := t.kind, subject := some ch, value := some reading, trigger := x.triggerOf ch t }
          { s with an := { s.an with channels := s.an.channels.set ch record } } := by
  unfold State.evaluateChannel
  simp only [hx, henable, he, hevaluate, if_true]
  cases transition <;> rfl

/-- The trigger cause that the settings of a channel give (R77). -/
theorem ChannelSetting.triggerOf_eq {x : ChannelSetting} {ch : Nat} {t : Transition} {trigger : Option (Cause × Option Nat)}
    (hhigh : t.kind = .analogHigh → x.triggerHigh = true → trigger = some (.localAnalog ch .high, some t.time))
    (hlow : t.kind = .analogLow → x.triggerLow = true → trigger = some (.localAnalog ch .low, some t.time))
    (hnone : t.kind ≠ .analogHigh ∨ x.triggerHigh = false → t.kind ≠ .analogLow ∨ x.triggerLow = false →
      trigger = none) : x.triggerOf ch t = trigger := by
  unfold ChannelSetting.triggerOf
  split
  case isTrue h => exact (hhigh h.1 h.2).symm
  case isFalse h =>
    split
    case isTrue h' => exact (hlow h'.1 h'.2).symm
    case isFalse h' => exact (hnone (by simpa [imp_iff_not_or] using h) (by simpa [imp_iff_not_or] using h')).symm

/-- Settles O29: a counted scan by its reference result and the snapshot position; then one channel by its setting. -/
theorem scanEvaluationRunsChannelsThenSnapshots : Obligations.ScanEvaluationRunsChannelsThenSnapshots := by
  refine ⟨?_, fun s time reading ch x hx => ?_⟩
  · rintro s w dt c rfl
    refine ⟨fun time hscan => execScanEvaluation_settling hscan dt c, fun time v fault hscan hcheck hother => ?_⟩
    have hexec : exec (.scanEvaluation dt c) s = _ := execScanEvaluation_counted hscan dt c
    have heq := State.evaluateScan_eq (w := { s.advance dt with an := { s.an with scan := none } }) hcheck hother
    rw [hexec, heq]
    refine ⟨fun hfault => by simp [hfault], fun hfault t ht => ?_⟩
    have hdue (u : State) (hsc : u.sc = s.sc) (han : u.an = { s.an with scan := none }) : u.snapshotDue = true ↔
        s.sc.config.analog.interval ≠ 0 ∧ s.an.intervalPos ≠ none ∧
          s.an.intervalPos = s.an.offset.map (fun d => s.sc.config.analog.interval - d) := by
      rw [State.snapshotDue_iff, hsc, han]
    have ht' : v.evaluateChannels time c = t := ht.symm
    rw [hfault, if_neg Bool.false_ne_true, ht']
    exact congrArg Host.Outcome.next (if_congr (hdue _ (State.advance_sc dt s) rfl) rfl rfl)
  · have hsetting : s.channelSetting ch = x := by simp [State.channelSetting, List.getD_eq_getElem?_getD, hx]
    refine ⟨fun henable => ?_, fun henable hsnapshot => ?_, fun henable hsnapshot => ?_,
      fun e record transition henable he hevaluate => ?_⟩
    · simp [State.evaluateChannel, State.snapshotChannel, hsetting, henable]
    · simp [State.snapshotChannel, hsetting, hsnapshot]
    · simp [State.snapshotChannel, hsetting, henable, hsnapshot]
    · have hexcursion : s.excursion ch = e := by simp [State.excursion, List.getD_eq_getElem?_getD, he]
      rw [State.evaluateChannel_enabled hsetting henable hexcursion hevaluate]
      refine ⟨?_, ?_⟩
      · rintro rfl
        rfl
      · rintro t trigger rfl hhigh hlow hnone
        rw [← ChannelSetting.triggerOf_eq hhigh hlow hnone]

end Sys2Proof.Machine
end

section
/-!
The Time Unit and the Peer Monitor (chapter 6): due moments, beacons, presence and the clash window.
-/

namespace Sys2Proof.Machine

@[simp] theorem State.advance_station (n : Nat) (s : State) : (s.advance n).station = s.station := by
  simp [State.station]

@[simp] theorem State.advanceTo_station (m : Nat) (s : State) : (s.advanceTo m).station = s.station :=
  State.advance_station _ s

/-- Settles O32: the two expiries by what runs. -/
theorem timeUnitTimersFallDue : Obligations.TimeUnitTimersFallDue := by
  refine ⟨?_, ?_, fun s hsync => ?_⟩
  · rintro s w plan hop hplan rfl
    constructor
    · intro hpending
      show execBeaconDue s = _
      unfold execBeaconDue
      simp only [hop, hplan, hpending, Bool.false_eq_true, if_false, State.advanceTo_lc]
      rfl
    · intro hpending
      show execBeaconDue s = _
      unfold execBeaconDue
      simp only [hop, hplan, hpending, if_true]
      rfl
  · rintro s w since hsync hsince rfl
    show execSyncTimerExpiry s = _
    unfold execSyncTimerExpiry
    rw [hsync, hsince]
    rfl
  · show execSyncTimerExpiry s = _
    unfold execSyncTimerExpiry
    split
    · exact absurd (by assumption) hsync
    · rfl

/-! ## Beacons (R107 to R110) -/

/-- Up to the tolerance the count stays (R108). -/
theorem State.stepTime_within {s : State} {d : Int} (h : d ≤ s.station.tolerance) : s.stepTime d = s := by
  simp [State.stepTime, State.steppedCount, not_lt.mpr h]

/-- Above it the count steps forward by the offset, held at its top, and TIME_STEP carries the size (R108, R109). -/
theorem State.stepTime_above {s : State} {sender stamp : Nat} (h : stamp + s.station.tolerance < sender) {count : Nat}
    (hcount : count = min (s.tu.timeCount + (sender - stamp)) timeTop) (hmax : s.tu.timeCount ≤ timeTop) :
    s.stepTime ((sender : Int) - (stamp : Int)) = if s.tu.timeCount < count then
        State.emit { time := count, kind := .timeStep, value := some (count - s.tu.timeCount) }
          { s with tu := { s.tu with timeCount := count } }
      else s := by
  have hstep : s.steppedCount ((sender : Int) - (stamp : Int)) = count := by
    unfold State.steppedCount
    rw [if_pos (by omega), hcount, show ((sender : Int) - (stamp : Int)).toNat = sender - stamp by omega]
  unfold State.stepTime
  simp only [hstep, Nat.sub_pos_iff_lt]
  split
  · rfl
  · have hsame : count = s.tu.timeCount := by omega
    rw [hsame]

/-- Settles O33: the three ranges of a beacon's offset. -/
theorem beaconStepsTheCountForward : Obligations.BeaconStepsTheCountForward := by
  intro s sender stamp hmax
  refine ⟨fun hbelow => ?_, fun hlow hhigh => ?_, fun count w habove hcount hw => ?_, ?_⟩
  · unfold State.takeBeaconTime
    dsimp only
    rw [State.stepTime_within (by omega), if_neg (by omega)]
  · unfold State.takeBeaconTime
    dsimp only
    rw [State.stepTime_within (by omega), if_pos (by omega)]
  · unfold State.takeBeaconTime
    dsimp only
    rw [State.stepTime_above habove hcount hmax, ← hw, if_pos (by omega)]
  · unfold State.gainSync
    split
    case isTrue h => rw [← h]
    case isFalse => rfl

/-! ## Presence (R114 to R116) -/

/-- Settles O34: a frame and an expiry by the entry's presence. -/
theorem presenceFollowsThePeersFrames : Obligations.PresenceFollowsThePeersFrames := by
  refine ⟨fun s a p ha hp => ⟨fun hpresent => ?_, fun hpresent => ?_, fun b => ?_⟩,
    fun s a p ha hp => ⟨fun hpresent => ?_, ?_⟩⟩
  · simp only [State.peerHeard, State.peer_eq ha, hp, hpresent, if_true]
    rw [← hpresent]
    rfl
  · simp only [State.peerHeard, State.peer_eq ha, hp, hpresent, Bool.false_eq_true, if_false]
    rfl
  · simp only [State.noteBeacon, State.peer_eq ha, hp]
    rfl
  all_goals
    have ha' : 1 ≤ a.toNat := by
      have : a.toNat ≠ 0 := fun h => ha (BitVec.eq_of_toNat_eq h)
      omega
    have hpeer : s.peer a.toNat = some p := (State.peer_eq ha' s).trans hp
  · show execPeerPresenceExpiry a s = _
    unfold execPeerPresenceExpiry
    simp [hpeer, hpresent]
  · rintro w hpresent rfl
    show execPeerPresenceExpiry a s = _
    unfold execPeerPresenceExpiry
    simp only [hpeer, hpresent, if_true, State.setPeer, State.advanceTo_pm]
    rfl

/-! ## The clash window (R118, R119) -/

/-- Settles O35: a clash frame by the condition, and the end of the window. -/
theorem clashFrameSetsTheConditionForEightPeriods : Obligations.ClashFrameSetsTheConditionForEightPeriods := by
  refine ⟨?_, ?_⟩
  · rintro s w dt stamp kind dst payload hline hbroken rfl
    have hexec : exec (.clashFrameReceived dt kind dst payload) s =
        .next (State.acceptReception (s.advance dt)).clashFrame := by
      show execClashFrameReceived dt kind dst payload s = _
      unfold execClashFrameReceived
      dsimp only
      rw [State.receive_valid (stamp := stamp) _ (by simpa using hline) hbroken]
      unfold State.dispatch
      rw [if_pos]
      exact (State.addressByte_of_straps (by simp)).symm
    have hconditions : (State.acceptReception (s.advance dt)).sc = s.sc := by simp
    rw [hexec]
    unfold State.clashFrame
    simp only [hconditions]
    refine ⟨fun hset => ?_, fun hclear => ?_⟩
    · rw [if_pos hset]
      simp
    · rw [if_neg (by simp [hclear])]
      simp [State.setCondition, Conditions.put]
  · rintro s w since hsince rfl
    show execClashWindowExpiry s = _
    unfold execClashWindowExpiry
    simp only [hsince, State.setCondition, Conditions.put, State.advanceTo_sc, State.advanceTo_pm]
    rfl

end Sys2Proof.Machine
end

section
/-!
Line access (chapter 7): the arbiter's choice and the frame it stages.
-/

namespace Sys2Proof.Machine

/-! ## The arbiter (R128) -/

theorem State.arbiterReady_iff {s : State} : s.arbiterReady = true ↔
    s.lc.line = .quiet ∧ s.lc.backoffEnd = none ∧ ∃ since, s.lc.quietSince = some since ∧ since + 16 ≤ s.tu.elapsed := by
  unfold State.arbiterReady State.idleGapMet
  cases s.lc.quietSince with
  | none => simp
  | some since =>
    simp only [idleGap, Bool.and_eq_true, beq_iff_eq, Option.isNone_iff_eq_none, and_assoc, Option.some.injEq,
      exists_eq_left']
    exact and_congr_right fun _ => and_congr_right fun _ => decide_eq_true_iff

/-- An arbiter that may not act, or has nothing to choose, leaves the state. -/
theorem execArbiterSelect_idle {s : State} (h : s.arbiterReady = false ∨ s.chosenSource = none) :
    exec .arbiterSelect s = .next s := by
  show execArbiterSelect s = _
  unfold execArbiterSelect
  rcases h with h | h <;> simp [h]

theorem execArbiterSelect_chosen {s : State} {src : Source} (hready : s.arbiterReady = true)
    (h : s.chosenSource = some src) : exec .arbiterSelect s = .next (s.stage src) := by
  show execArbiterSelect s = _
  unfold execArbiterSelect
  rw [hready, h]

/-- In RUNNING every source is eligible, so the first holder of an item in the order of priority is chosen. -/
theorem State.chosenSource_running {s : State} (hop : s.sc.op = .running) :
    s.chosenSource = [Source.trigger, .reply, .beacon, .event].find? fun src => s.holdsItem src := by
  simp [State.chosenSource, State.eligible, hop]

/-- In SETUP the reply alone is eligible. -/
theorem State.chosenSource_setup {s : State} (hop : s.sc.op = .setup) :
    s.chosenSource = if s.rh.slot = none then none else some .reply := by
  cases hslot : s.rh.slot <;> simp [State.chosenSource, State.eligible, State.holdsItem, hop, hslot]

theorem State.holdsItem_event {s : State} :
    s.holdsItem .event = true ↔ s.er.batch ≠ none ∨ s.er.queue ≠ [] ∨ 0 < s.er.drops := by
  simp [State.holdsItem, or_assoc, Option.isSome_iff_ne_none]

/-- Settles O37: the arbiter's conditions, then the choice by what each source holds. -/
theorem arbiterStagesTheHighestPriority : Obligations.ArbiterStagesTheHighestPriority := by
  intro s since
  refine ⟨fun hidle => execArbiterSelect_idle ?_, fun hline hbackoff hquiet hgap => ?_, fun from' hquiet hgap =>
    execArbiterSelect_idle (.inl ?_)⟩
  · rw [← Bool.not_eq_true, State.arbiterReady_iff]
    rcases hidle with h | h | h | h | h
    · exact .inl fun hready => h hready.1
    · exact .inl fun hready => h hready.2.1
    · exact .inl fun ⟨_, _, _, hsome, _⟩ => by simp [h] at hsome
    · exact .inr (by simp [State.chosenSource, State.eligible, h])
    · exact .inr (by simp [State.chosenSource, State.eligible, h])
  · have hready : s.arbiterReady = true := State.arbiterReady_iff.mpr ⟨hline, hbackoff, since, hquiet, hgap⟩
    refine ⟨fun hop htrigger => execArbiterSelect_chosen hready ?_, fun hcase hslot => execArbiterSelect_chosen hready ?_,
      fun hop htrigger hslot hbeacon => execArbiterSelect_chosen hready ?_,
      fun hop htrigger hslot hbeacon hevent => execArbiterSelect_chosen hready ?_,
      fun hop hslot => execArbiterSelect_idle (.inr ?_),
      fun hop htrigger hslot hbeacon hbatch hqueue hdrops => execArbiterSelect_idle (.inr ?_)⟩
    · have : s.holdsItem .trigger = true := Option.isSome_iff_ne_none.mpr htrigger
      simp [State.chosenSource_running hop, List.find?, this]
    · rcases hcase with ⟨hop, htrigger⟩ | hop
      · have : s.holdsItem .reply = true := Option.isSome_iff_ne_none.mpr hslot
        simp [State.chosenSource_running hop, List.find?, this, show s.holdsItem .trigger = false by
          simp [State.holdsItem, htrigger]]
      · rw [State.chosenSource_setup hop, if_neg hslot]
    · simp [State.chosenSource_running hop, List.find?, State.holdsItem, htrigger, hslot, hbeacon]
    · simp [State.chosenSource_running hop, List.find?, State.holdsItem_event.mpr hevent, show s.holdsItem .trigger = false by
        simp [State.holdsItem, htrigger], show s.holdsItem .reply = false by simp [State.holdsItem, hslot],
        show s.holdsItem .beacon = false from hbeacon]
    · rw [State.chosenSource_setup hop, if_pos hslot]
    · simp [State.chosenSource_running hop, List.find?, State.holdsItem, htrigger, hslot, hbeacon, hbatch, hqueue, hdrops]
  · rw [← Bool.not_eq_true, State.arbiterReady_iff]
    rintro ⟨_, _, since', hsince, hle⟩
    rw [hquiet] at hsince
    obtain rfl := Option.some.inj hsince
    omega

/-! ## Staging (R92, R93, R106, R129) -/

/-- A staged batch: its payload written out. -/
theorem State.batchPayload_eq {s : State} {b : Batch} (h : s.er.batch = some b) : s.batchPayload =
    [BitVec.ofNat 8 b.number, BitVec.ofNat 8 b.drops, BitVec.ofNat 8 (s.er.queue.take b.records).length] ++
      (s.er.queue.take b.records).flatMap fun q => recordBytes
        { time := q.time, origin := s.address, originSeq := q.ownSeq, kind := q.kind
          subject := q.subject, value := q.value, capture := none, sync := q.sync } := by
  unfold State.batchPayload
  simp only [h, eventPayload, byteOf, List.length_map, List.flatMap_map]
  rfl

/-- Settles O38: one frame per source, and a batch formed unless one is in flight. -/
theorem stagingBuildsTheFrameFromItsItem : Obligations.StagingBuildsTheFrameFromItsItem := by
  refine ⟨fun s => ⟨fun t ht => ?_, fun f hf => ?_, rfl⟩, fun s er number drops n hflight hform => ?_⟩
  · unfold State.stage
    simp only [reduceCtorEq, if_false, State.itemFrame, ht, Option.map_some]
    rfl
  · unfold State.stage
    simp only [reduceCtorEq, if_false, State.itemFrame, hf]
  · have hformed : s.formBatch = { s with er := er } ∧ er.queue = s.er.queue ∧
        er.batch = some { number, drops, records := n } := by
      cases hbatch : s.er.batch with
      | some b =>
        obtain ⟨rfl, rfl, rfl, rfl⟩ := hflight b hbatch
        exact ⟨by simp [State.formBatch, hbatch], rfl, hbatch⟩
      | none =>
        obtain ⟨rfl, rfl, rfl, rfl⟩ := hform hbatch
        exact ⟨by simp only [State.formBatch, hbatch]; rfl, rfl, rfl⟩
    obtain ⟨heq, hqueue, hbatch⟩ := hformed
    have hpayload := State.batchPayload_eq (s := { s with er := er }) hbatch
    unfold State.stage
    rw [if_pos rfl, heq]
    simp only [State.itemFrame, hpayload, hqueue]
    rfl

end Sys2Proof.Machine
end

section
/-!
Line access (chapter 7): the line's own moments, collisions, back-offs, completion and a stuck line.
-/

namespace Sys2Proof.Machine

/-! ## Activity, staging and the start instant (R106, R123, R129, R137) -/

theorem State.receiverOn_iff {s : State} : s.receiverOn = true ↔ s.sc.op = .setup ∨ s.sc.op = .running := by
  simp [State.receiverOn]

theorem execActivityBegins_heard {s : State} (dt : Nat) (hop : s.sc.op = .setup ∨ s.sc.op = .running)
    (hactive : s.lc.activeSince = none) : exec (.activityBegins dt) s = .next (s.advance dt).activityBegins := by
  have hon : (s.advance dt).receiverOn = true := State.receiverOn_iff.mpr (by simpa using hop)
  show execActivityBegins dt s = _
  unfold execActivityBegins
  simp [hon, hactive]

theorem execActivityBegins_off {s : State} (dt : Nat) (hop : s.sc.op = .starting ∨ s.sc.op = .startFault) :
    exec (.activityBegins dt) s = .next (s.advance dt) := by
  have hoff : (s.advance dt).receiverOn = false := by
    rw [← Bool.not_eq_true, State.receiverOn_iff]
    rcases hop with h | h <;> simp [h]
  show execActivityBegins dt s = _
  unfold execActivityBegins
  simp [hoff]

/-- Settles O39: one case per line state of the command at hand. -/
theorem lineMomentsBeginReceptionsAndStampFrames : Obligations.LineMomentsBeginReceptionsAndStampFrames := by
  refine ⟨?_, ?_, ?_, ?_⟩
  · rintro s w dt rfl
    refine ⟨fun hop hactive => ⟨fun hline => ?_, fun hline => ?_⟩, execActivityBegins_off dt, fun since hactive hquiet => ?_⟩
    · rw [execActivityBegins_heard dt hop hactive]
      rcases hline with h | h | ⟨since, out, h⟩ <;> simp [State.activityBegins, h]
    · rw [execActivityBegins_heard dt hop hactive]
      simp [State.activityBegins, hline]
    · show execLineBecomesQuiet dt s = _
      unfold execLineBecomesQuiet
      simp [State.lineQuiet, hactive, hquiet]
  · rintro s w since out hline rfl
    show execStagingEnd s = _
    unfold execStagingEnd
    simp only [hline, State.advanceTo_lc]
    rfl
  · rintro s w dt rfl hline
    show execFrameStartInstant dt s = _
    unfold execFrameStartInstant
    simp [hline]
  · rintro s w dt since f k source hline rfl
    have hexec : exec (.frameStartInstant dt) s = .next { (s.advance dt).advanceTo (since + 12) with lc := { s.lc with
        line := .transmitting since
          (Outgoing.stamp { source, frame := f } ((s.advance dt).advanceTo (since + 12)).tu.timeCount) k } } := by
      show execFrameStartInstant dt s = _
      unfold execFrameStartInstant
      simp only [State.advance_lc, State.advanceTo_lc, hline]
      rfl
    rw [hexec]
    constructor
    · rintro rfl
      rfl
    · intro hother
      have hstamp : Outgoing.stamp { source, frame := f } ((s.advance dt).advanceTo (since + 12)).tu.timeCount =
          { source, frame := f } := by
        cases source with
        | beacon => exact absurd rfl hother
        | trigger | reply | event => rfl
      rw [hstamp, ← hline]
      exact congrArg Host.Outcome.next (by rw [← State.advance_lc dt s, ← State.advanceTo_lc (since + 12) (s.advance dt)])

/-! ## Collisions (R132 to R136) -/

@[simp] theorem State.advance_sync (n : Nat) (s : State) : (s.advance n).tu.sync = s.tu.sync := by
  unfold State.advance
  split <;> rfl

/-- A collision with no back-off running: the count rises and the drawn back-off starts. -/
theorem State.collide_fresh {s : State} (h : s.lc.backoffEnd = none) (k : Nat) : s.collide k = { s with
    lc := { s.lc with
      line := .backoff
      collisions := min (s.lc.collisions + 1) 65535
      generator := backoffStep s.lc.generator
      backoffEnd := some (s.tu.elapsed + backoffStep s.lc.generator % 2 ^ min k 5 * 32) } } := by
  unfold State.collide
  simp only [h]
  rfl

theorem execCollision_reported {s : State} {since : Nat} {out : Outgoing} (hline : s.lc.line = .transmitting since out none)
    (dt : Nat) (struck : Struck) : exec (.collision dt struck) s = .next
      (((s.advance dt).collide (s.lc.attempts.get out.source + 1)).countAttempt struck out.source
        (s.lc.attempts.get out.source + 1)) := by
  show execCollision dt s struck = _
  unfold execCollision
  simp only [State.advance_lc, hline]

/-- Settles O40: an item reported on, or one its source has ended. -/
theorem collisionStartsADrawnBackoff : Obligations.CollisionStartsADrawnBackoff := by
  constructor
  · rintro s w dt since k out struck hline hbackoff rfl rfl hlimit
    rw [execCollision_reported hline, State.collide_fresh (by simpa using hbackoff)]
    unfold State.countAttempt
    rw [if_neg (show ¬ collisionLimit ≤ _ from Nat.not_le.mpr hlimit)]
    simp only [State.advance_lc]
  · rintro s w dt since k out struck hline hbackoff rfl
    have hexec : exec (.collision dt struck) s = .next ((s.advance dt).collide (k + 1)) := by
      show execCollision dt s struck = _
      unfold execCollision
      simp only [State.advance_lc, hline]
    rw [hexec, State.collide_fresh (by simpa using hbackoff)]
    simp only [State.advance_lc]

/-- What the end of a reply's item does, by the restart it owes (R149, R163). -/
theorem State.replyEnded_kept {s : State} (h : s.rh.restartOwed = false) (struck : Struck) :
    s.replyEnded struck = { s with rh := { s.rh with slot := none } } := by
  simp [State.replyEnded, h]

theorem State.replyEnded_owed {s : State} (h : s.rh.restartOwed = true) (struck : Struck) :
    s.replyEnded struck = s.beginReset .restartRequest struck := by
  simp [State.replyEnded, h]

/-- The end of a batch in flight (R94, R96). -/
theorem State.endBatch_some {s : State} {b : Batch} (h : s.er.batch = some b) (drops : Nat) : s.endBatch drops = { s with
    er := { s.er with queue := s.er.queue.drop b.records, drops := min (s.er.drops + drops) 255, batch := none } } := by
  unfold State.endBatch
  simp only [h]
  rfl

theorem State.batchLoss_some {s : State} {b : Batch} (h : s.er.batch = some b) : s.batchLoss = b.records + b.drops := by
  simp [State.batchLoss, h]

/-- The state the twelfth collision hands to the item's source. -/
def State.afterTwelfth (out : Outgoing) (s : State) : State :=
  { s with lc := { s.lc with
      line := .backoff
      attempts := s.lc.attempts.put out.source 0
      collisions := min (s.lc.collisions + 1) 65535
      abandoned := min (s.lc.abandoned + 1) 65535
      generator := backoffStep s.lc.generator
      backoffEnd := some (s.tu.elapsed + backoffStep s.lc.generator % 32 * 32) } }

theorem execCollision_twelfth {s : State} {since : Nat} {out : Outgoing} (hline : s.lc.line = .transmitting since out none)
    (hbackoff : s.lc.backoffEnd = none) (hattempts : s.lc.attempts.get out.source = 11) (dt : Nat) (struck : Struck) :
    exec (.collision dt struck) s = .next (((s.advance dt).afterTwelfth out).sourceAbandoned struck out.source) := by
  rw [execCollision_reported hline, hattempts, State.collide_fresh (by simpa using hbackoff)]
  unfold State.countAttempt
  rw [if_pos (by decide)]
  rfl

/-- Settles O41: the abandonment by its source. -/
theorem twelfthCollisionAbandonsTheItem : Obligations.TwelfthCollisionAbandonsTheItem := by
  intro s w dt since out struck hline hbackoff hattempts hw
  obtain rfl : w = (s.advance dt).afterTwelfth out := by
    rw [hw]
    simp only [State.afterTwelfth, State.advance_lc]
  rw [execCollision_twelfth hline hbackoff hattempts]
  refine ⟨fun t hsource ht => ?_, fun hsource => ?_, fun b hsource hb => ?_, fun hsource howed => ?_,
    fun hsource howed => ?_⟩
  all_goals simp only [hsource, State.sourceAbandoned]
  · have hpending : ((s.advance dt).afterTwelfth out).cc.pendingTrigger = some t := by simpa [State.afterTwelfth] using ht
    have haddress : State.address { (s.advance dt).afterTwelfth out with
        cc := { ((s.advance dt).afterTwelfth out).cc with pendingTrigger := none } } = s.address := by
      simp [State.address, State.afterTwelfth]
    simp only [hpending, State.captureDraft, State.ownDraft, haddress]
    simp [State.afterTwelfth]
  · have hbatch : ((s.advance dt).afterTwelfth out).er.batch = some b := by simpa [State.afterTwelfth] using hb
    rw [State.endBatch_some hbatch, State.batchLoss_some hbatch]
    simp [State.afterTwelfth]
  · rw [State.replyEnded_kept (by simpa [State.afterTwelfth] using howed)]
    simp [State.afterTwelfth]
  · rw [State.replyEnded_owed (by simpa [State.afterTwelfth] using howed)]

/-! ## The end of a back-off, the idle gap and completion (R123, R131, R134, R142) -/

theorem State.restingLine_eq (s : State) : s.restingLine = if s.lc.backoffEnd = none then .quiet else .backoff := by
  cases h : s.lc.backoffEnd <;> simp [State.restingLine, h]

/-- Settles O42: the expiry, and the idle gap by the line state. -/
theorem backoffAndIdleGapFreeTheLine : Obligations.BackoffAndIdleGapFreeTheLine := by
  constructor
  · intro s e hbackoff
    show execBackoffExpiry s = _
    unfold execBackoffExpiry
    simp only [hbackoff, State.advanceTo_lc]
  · rintro s w since hquiet rfl
    have hexec : exec .idleGapMet s = .next (if s.lc.line = .stuck then (s.advanceTo (since + 16)).recoverLine
        else s.advanceTo (since + 16)) := by
      show execIdleGapMet s = _
      unfold execIdleGapMet
      simp only [hquiet, State.advanceTo_lc]
      rfl
    rw [hexec]
    refine ⟨fun hline => by rw [if_neg hline], fun hline => ?_⟩
    rw [if_pos hline]
    unfold State.recoverLine
    simp only [State.restingLine_eq, State.advanceTo_lc, State.setCondition, Conditions.put, State.advanceTo_sc]

/-- Settles O43: the completion by its source. -/
theorem completionEndsTheItemAtItsSource : Obligations.CompletionEndsTheItemAtItsSource := by
  intro s w since out k struck hline hquiet hw
  have hexec : exec (.transmissionComplete struck) s =
      .next (if k = none then w.sourceCompleted struck out.source else w) := by
    show execTransmissionComplete s struck = _
    unfold execTransmissionComplete
    cases k with
    | none => simp [hline, hw, State.lineQuiet, hquiet, Frame.duration]
    | some attempts => simp [hline, hw, State.lineQuiet, hquiet, Frame.duration]
  have her : w.er = s.er := by simp [hw]
  have hcc : w.cc = s.cc := by simp [hw]
  have hrh : w.rh = s.rh := by simp [hw]
  rw [hexec]
  refine ⟨fun attempts hk => by simp [hk], fun hk hsource => ?_, fun hk hsource => ?_, fun b hk hsource hb hdrops => ?_,
    fun hk hsource howed => ?_, fun hk hsource howed => ?_⟩
  all_goals simp only [hk, hsource, if_true, State.sourceCompleted]
  · rw [hcc]
  · rw [State.endBatch_some (her ▸ hb), her, Nat.add_zero, Nat.min_eq_left hdrops]
  · rw [State.replyEnded_kept (hrh ▸ howed), hrh]
  · rw [State.replyEnded_owed (hrh ▸ howed)]

/-! ## A stuck line (R141, R143) -/

theorem execActivityTimeExpiry_stuck {s : State} {since : Nat} (hactive : s.lc.activeSince = some since)
    (hline : s.lc.line = .quiet ∨ s.lc.line = .backoff ∨ ∃ stamp, s.lc.line = .receiving stamp) :
    exec .activityTimeExpiry s = .next (s.advanceTo (since + 1000)).becomeStuck := by
  show execActivityTimeExpiry s = _
  unfold execActivityTimeExpiry
  rcases hline with h | h | ⟨stamp, h⟩
  all_goals
    simp only [hactive, h]
    rfl

/-- Settles O44: a reception is broken, any other line state is left for STUCK alone. -/
theorem millisecondOfActivitySticksTheLine : Obligations.MillisecondOfActivitySticksTheLine := by
  rintro s w since hactive rfl
  refine ⟨fun stamp hline => ?_, fun hline => ?_⟩
  · rw [execActivityTimeExpiry_stuck hactive (.inr (.inr ⟨stamp, hline⟩))]
    unfold State.becomeStuck State.breakReception
    simp only [State.advanceTo_lc, hline, State.setCondition, Conditions.put, State.advanceTo_sc]
    rfl
  · rw [execActivityTimeExpiry_stuck hactive (by tauto)]
    unfold State.becomeStuck
    rcases hline with h | h <;>
      simp only [h, State.advanceTo_lc, State.setCondition, Conditions.put, State.advanceTo_sc]

end Sys2Proof.Machine
end

section
/-!
The frame on the pair (R124, R125, R138, R184) and the end of a reception (R137 to R144).
-/

namespace Sys2Proof

open Machine

/-! ## The bytes and the symbols of a frame -/

/-- Content is read as a frame exactly when it is that frame's content, its length fitting the length byte. -/
theorem frameOfContent_iff (bs : List Byte) (f : Frame) :
    frameOfContent bs = some f ↔ f.payload.length < 256 ∧ bs = f.content := by
  constructor
  · intro h
    match bs, h with
    | kind :: src :: dst :: len :: rest, h =>
      simp only [frameOfContent, Option.ite_none_right_eq_some, Bool.and_eq_true, beq_iff_eq, Option.some.injEq] at h
      obtain ⟨⟨hlength, hcheck⟩, rfl⟩ := h
      have hpayload : (rest.take len.toNat).length = len.toNat := by simp; omega
      refine ⟨by rw [hpayload]; exact len.isLt, ?_⟩
      have hlen : BitVec.ofNat 8 (rest.take len.toNat).length = len := by simp [hpayload]
      conv_lhs => rw [← List.take_append_drop len.toNat rest, hcheck]
      simp only [Frame.content, Frame.covered, hlen, List.cons_append]
  · rintro ⟨hlength, rfl⟩
    have hlen : (BitVec.ofNat 8 f.payload.length).toNat = f.payload.length := by simp; omega
    simp [Frame.content, Frame.covered, frameOfContent, hlen, natBE_length]

theorem Frame.length_of_sound {f : Frame} (h : f.broken = false) : f.payload.length ≤ 64 := by
  simp only [Frame.broken, Bool.or_eq_false_iff, decide_eq_false_iff_not] at h
  omega

/-- Symbols between delimiters are read as a frame exactly when they are that frame's and R138 does not call it
broken. -/
theorem frameOfSymbols_iff (content : List Symbol) (f : Frame) :
    frameOfSymbols content = some f ↔ f.broken = false ∧ content = byteSymbols f.content := by
  constructor
  · intro h
    unfold frameOfSymbols at h
    split at h
    case h_1 => cases h
    case h_2 bits hbits =>
      split at h
      case h_1 => cases h
      case h_2 bs hbs =>
        split at h
        case h_1 => cases h
        case h_2 g hg =>
          simp only [Option.ite_none_left_eq_some, Bool.not_eq_true, Option.some.injEq] at h
          obtain ⟨hbroken, rfl⟩ := h
          obtain ⟨-, rfl⟩ := (frameOfContent_iff bs g).mp hg
          rw [(symbolBits_iff content bits).mp hbits, (bitBytes_iff bits _).mp hbs]
          exact ⟨hbroken, rfl⟩
  · rintro ⟨hbroken, rfl⟩
    have hcontent : frameOfContent f.content = some f :=
      (frameOfContent_iff _ f).mpr ⟨by have := Frame.length_of_sound hbroken; omega, rfl⟩
    simp [frameOfSymbols, byteSymbols, symbolBits_bits, bitBytes_byteBits, hcontent, hbroken]

theorem symbolBits_isSome (l : List Symbol) : (symbolBits l).isSome = true ↔ .vHigh ∉ l ∧ .vLow ∉ l := by
  induction l with
  | nil => simp [symbolBits]
  | cons a l ih => cases a <;> simp [symbolBits, ih]

theorem Heard.frame_iff (heard : Heard) (f : Frame) : heard.frame = some f ↔
    heard.start = startDelimiter ∧ heard.finish = endDelimiter ∧ .vHigh ∉ heard.lead ∧ .vLow ∉ heard.lead ∧
      frameOfSymbols heard.content = some f := by
  simp only [Heard.frame, Option.ite_none_right_eq_some, Bool.and_eq_true, beq_iff_eq, symbolBits_isSome]
  tauto

/-- The lengths Table 10-3 gives a kind, as far as 64 bytes allow them. -/
theorem lengthAllowed_iff (kind : Byte) (n : Nat) : lengthAllowed kind n = false ↔
    (kind = 0x11#8 ∧ n ∉ [8, 16]) ∨ (kind = 0x12#8 ∧ n ≠ 8) ∨ (kind = 0x13#8 ∧ n ∉ [3, 23, 43, 63]) ∨
    (kind = 0x21#8 ∧ n ≠ 1) ∨ (kind = 0x22#8 ∧ n ≠ 4) ∨ (kind = 0x24#8 ∧ n ≠ 2) ∨
    (kind ∈ [0x23#8, 0x25#8, 0x27#8, 0x28#8] ∧ n ≠ 0) ∨ (kind = 0x26#8 ∧ (n = 0 ∨ 64 < n)) ∨
    (kind = 0x31#8 ∧ n ∉ [30, 25, 3, 11, 19, 27, 35, 43, 51]) ∨ (kind = 0x32#8 ∧ n ∉ [2, 26, 50]) ∨
    (kind = 0x33#8 ∧ n ≠ 30) ∨ (kind = 0x34#8 ∧ n ≠ 2) := by
  unfold lengthAllowed
  simp only [kindBeacon, kindTrigger, kindEvent, kindQuery, kindFetch, kindPeers, kindRelease, kindForce, kindConfig,
    kindSetupEnd, kindRestart, kindState, kindEntries, kindPeerList, kindResult]
  by_cases hlisted : kind ∈ [0x11#8, 0x12#8, 0x13#8, 0x21#8, 0x22#8, 0x23#8, 0x24#8, 0x25#8, 0x26#8, 0x27#8, 0x28#8,
      0x31#8, 0x32#8, 0x33#8, 0x34#8]
  · simp only [List.mem_cons, List.not_mem_nil, or_false] at hlisted
    rcases hlisted with rfl | rfl | rfl | rfl | rfl | rfl | rfl | rfl | rfl | rfl | rfl | rfl | rfl | rfl | rfl
    all_goals simp [and_assoc]
    omega
  · simp only [List.mem_cons, List.not_mem_nil, or_false, not_or] at hlisted
    simp [hlisted]

theorem Frame.broken_iff (f : Frame) (n : Nat) (hn : n = f.payload.length) : f.broken = true ↔
    64 < n ∨ 30 < f.src.toNat ∨ f.dst = 0#8 ∨ lengthAllowed f.kind n = false := by
  simp [Frame.broken, hn, or_assoc]

namespace Machine

/-! ## A reception's end (R137 to R141) -/

/-- The state a broken reception leaves, told from the state before the command. -/
theorem State.breakReception_advance (s : State) (dt : Nat) : (s.advance dt).breakReception =
    { s.advance dt with lc := { s.lc with
      broken := min (s.lc.broken + 1) 65535
      line := if s.lc.backoffEnd = none then .quiet else .backoff } } := by
  unfold State.breakReception
  simp only [State.restingLine_eq, State.advance_lc]
  rfl

theorem State.receive_advance_broken {s : State} {stamp : Option Nat} {f : Frame} (dt : Nat) (take : Nat → State → State)
    (hline : s.lc.line = .receiving stamp) (hf : f.broken = true ∨ stamp = none) :
    (s.advance dt).receive f take = { s.advance dt with lc := { s.lc with
      broken := min (s.lc.broken + 1) 65535
      line := if s.lc.backoffEnd = none then .quiet else .backoff } } := by
  rw [State.receive_broken take (by simpa using hline) hf, State.breakReception_advance]

/-- A request to destination 0 is broken. -/
theorem requestFrame_broken_of_dst {kind dst : Byte} {payload : List Byte} (h : dst = 0#8) :
    (requestFrame kind dst payload).broken = true := by
  simp [requestFrame, Frame.broken, h]

theorem requestFrame_config_broken {dst : Byte} {payload : List Byte}
    (h : dst = 0#8 ∨ payload = [] ∨ 64 < payload.length) : (requestFrame kindConfig dst payload).broken = true := by
  rcases h with h | h | h
  · exact requestFrame_broken_of_dst h
  · subst h
    exact (Frame.broken_iff _ 0 rfl).mpr (.inr (.inr (.inr rfl)))
  · simp [requestFrame, Frame.broken, h]

/-- Settles O45: what is heard, then the end of the reception by the command that brings it. -/
theorem receptionsEndBrokenOrValid : Obligations.ReceptionsEndBrokenOrValid := by
  refine ⟨?_, Heard.frame_iff, ⟨frameOfSymbols_iff, fun f n hn => ?_⟩,
    fun s => ⟨fun hline => ?_, fun stamp hline => ?_, fun since out hline => ?_, fun since out k hline => ?_⟩, fun s => ?_⟩
  · rintro s w dt stamp hline rfl
    refine ⟨fun hquiet => ?_, fun heard hbad => ?_, fun frame hbad => ?_, fun src dst payload => ⟨?_, ?_, ?_⟩,
      fun kind dst payload hbad => ?_, fun dst payload hbad => ?_, fun dst hbad => ?_⟩
    · show execReceptionBroken dt .becameQuiet s = _
      unfold execReceptionBroken
      simp only [State.advance_lc, hline]
      unfold State.breakReception
      simp [State.lineQuiet, State.restingLine_eq, hquiet, satAdd, top16]
    · show execReceptionBroken dt (.atDelimiter heard) s = _
      unfold execReceptionBroken
      have hfails : (stamp.isSome && heard.frame.isSome) = false := by rcases hbad with h | h <;> simp [h]
      simp only [State.advance_lc, hline, hfails, Bool.false_eq_true, if_false]
      exact congrArg Host.Outcome.next (State.breakReception_advance s dt)
    · exact congrArg Host.Outcome.next (State.receive_advance_broken dt _ hline hbad)
    · exact fun hbad => congrArg Host.Outcome.next (State.receive_advance_broken dt _ hline hbad)
    · exact fun hbad => congrArg Host.Outcome.next (State.receive_advance_broken dt _ hline hbad)
    · exact fun hbad => congrArg Host.Outcome.next (State.receive_advance_broken dt _ hline hbad)
    · exact congrArg Host.Outcome.next (State.receive_advance_broken dt _ hline hbad)
    · exact congrArg Host.Outcome.next (State.receive_advance_broken dt _ hline
        (by rw [← or_assoc, ← or_assoc] at hbad; exact hbad.imp (fun h => requestFrame_config_broken (or_assoc.mp h)) id))
    · have hrequest (kind : Byte) (payload : List Byte) :
          (requestFrame kind dst payload).broken = true ∨ stamp = none := hbad.imp_left requestFrame_broken_of_dst
      exact ⟨fun _ => congrArg Host.Outcome.next (State.receive_advance_broken dt _ hline (hrequest _ _)),
        fun _ => congrArg Host.Outcome.next (State.receive_advance_broken dt _ hline (hrequest _ _)),
        congrArg Host.Outcome.next (State.receive_advance_broken dt _ hline (hrequest _ _)),
        fun _ _ => congrArg Host.Outcome.next (State.receive_advance_broken dt _ hline (hrequest _ _)),
        congrArg Host.Outcome.next (State.receive_advance_broken dt _ hline (hrequest _ _)),
        fun _ => congrArg Host.Outcome.next (State.receive_advance_broken dt _ hline (hrequest _ _)),
        congrArg Host.Outcome.next (State.receive_advance_broken dt _ hline (hrequest _ _))⟩
  · rw [Frame.broken_iff f n hn, lengthAllowed_iff]
    by_cases hlong : 64 < n
    · simp only [hlong, true_or]
    · simp only [hlong, or_false, false_or]
  · rcases hline with h | h | h <;> simp [State.frameBuffer, h]
  · simp [State.frameBuffer, hline]
  · simp [State.frameBuffer, hline]
  · simp [State.frameBuffer, hline]
  · unfold State.acceptReception
    rw [State.restingLine_eq]
    cases s.lc.activeSince <;> rfl

end Machine

/-! ## The whole frame (Table 10-1) -/

theorem byteBits_eq_map (b : Byte) : byteBits b = [7, 6, 5, 4, 3, 2, 1, 0].map fun i => b.getLsbD i := rfl

theorem crcBit_eq (r : Check) (b : Bool) :
    crcBit r b = if r.getLsbD 15 = b then r <<< 1 else (r <<< 1) ^^^ 0x1021#16 := by
  unfold crcBit
  by_cases h : r.getLsbD 15 = b
  · rw [if_pos h, if_neg (by rw [h, bne_self_eq_false]; exact Bool.false_ne_true)]
  · rw [if_neg h, if_pos (bne_iff_ne.mpr h)]

theorem vHigh_notMem_preamble : .vHigh ∉ preamble := by decide

theorem vLow_notMem_preamble : .vLow ∉ preamble := by decide

theorem frame_heard {f : Frame} (h : f.broken = false) : f.heard.frame = some f :=
  (Heard.frame_iff _ f).mpr ⟨rfl, rfl, vHigh_notMem_preamble, vLow_notMem_preamble, (frameOfSymbols_iff _ f).mpr ⟨h, rfl⟩⟩

/-- Settles O59: reading back is `frameOfSymbols_iff`; the layout and the check are their definitions. -/
theorem framesReadBackFromTheirSymbols : Obligations.FramesReadBackFromTheirSymbols := by
  refine ⟨fun f h => ⟨(frameOfSymbols_iff _ f).mpr ⟨h, rfl⟩, frame_heard h⟩, fun f => rfl, fun f => ⟨rfl, ?_⟩, rfl,
    fun bs => ?_, by decide +kernel, rfl⟩
  · simp only [Frame.symbols, byteSymbols, List.map_flatMap, byteBits_eq_map, List.map_map]
    rfl
  · have hstep : crcBit = fun (r : Check) b => if r.getLsbD 15 = b then r <<< 1 else (r <<< 1) ^^^ 0x1021#16 :=
      funext fun r => funext fun b => crcBit_eq r b
    rw [crc, hstep]
    rfl

end Sys2Proof
end

section
/-!
Frames from peers (R139, Table 7-4).
-/

namespace Sys2Proof.Machine

theorem State.accepted_addressByte (s : State) (dt : Nat) :
    (State.acceptReception (s.advance dt)).addressByte = s.addressByte := State.addressByte_of_straps (by simp)

theorem State.addressed_iff {s : State} {dst : Byte} : s.addressed dst = true ↔ dst = s.addressByte ∨ dst = 31#8 := by
  simp [State.addressed, broadcast]

/-- A valid frame from a peer: presence, then its block where it is addressed to this station. -/
theorem State.receive_peer {s : State} {dt stamp : Nat} {f : Frame} (hline : s.lc.line = .receiving (some stamp))
    (hf : f.broken = false) (hsrc : f.src ≠ 0#8) (hown : f.src ≠ s.addressByte) :
    (s.advance dt).receive f (State.dispatch f) =
      if s.addressed f.dst then
        (State.peerHeard f.src.toNat (State.acceptReception (s.advance dt))).takeStationFrame f stamp
      else State.peerHeard f.src.toNat (State.acceptReception (s.advance dt)) := by
  rw [State.receive_valid (stamp := stamp) _ (by simpa using hline) hf]
  unfold State.dispatch State.addressed
  rw [State.accepted_addressByte, if_neg hown, if_neg hsrc]

theorem State.receive_peer_elsewhere {s : State} {dt stamp : Nat} {f : Frame}
    (hline : s.lc.line = .receiving (some stamp)) (hf : f.broken = false) (hsrc : f.src ≠ 0#8)
    (hown : f.src ≠ s.addressByte) (hdst : f.dst ≠ s.addressByte) (hall : f.dst ≠ 31#8) :
    (s.advance dt).receive f (State.dispatch f) = State.peerHeard f.src.toNat (State.acceptReception (s.advance dt)) := by
  rw [State.receive_peer hline hf hsrc hown, if_neg]
  rw [State.addressed_iff]
  exact not_or.mpr ⟨hdst, hall⟩

theorem State.receive_peer_here {s : State} {dt stamp : Nat} {f : Frame}
    (hline : s.lc.line = .receiving (some stamp)) (hf : f.broken = false) (hsrc : f.src ≠ 0#8)
    (hown : f.src ≠ s.addressByte) (hdst : f.dst = s.addressByte ∨ f.dst = 31#8) :
    (s.advance dt).receive f (State.dispatch f) =
      (State.peerHeard f.src.toNat (State.acceptReception (s.advance dt))).takeStationFrame f stamp := by
  rw [State.receive_peer hline hf hsrc hown, if_pos (State.addressed_iff.mpr hdst)]

theorem State.takeStationFrame_beacon (src dst : Byte) (payload : List Byte) (stamp : Nat) (s : State) :
    s.takeStationFrame { kind := kindBeacon, src, dst, payload } stamp = s.takeBeacon src.toNat stamp payload := rfl

theorem State.takeStationFrame_trigger (src dst : Byte) (payload : List Byte) (stamp : Nat) (s : State) :
    s.takeStationFrame { kind := kindTrigger, src, dst, payload } stamp =
      match parseTrigger payload with
      | none => s
      | some z => s.takeTrigger z := rfl

theorem State.takeStationFrame_event (src dst : Byte) (payload : List Byte) (stamp : Nat) (s : State) :
    s.takeStationFrame { kind := kindEvent, src, dst, payload } stamp =
      match parseEvent src.toNat payload with
      | none => s
      | some e => s.takeEvent src.toNat e := rfl

theorem State.takeStationFrame_other {f : Frame} (hbeacon : f.kind ≠ kindBeacon) (htrigger : f.kind ≠ kindTrigger)
    (hevent : f.kind ≠ kindEvent) (stamp : Nat) (s : State) : s.takeStationFrame f stamp = s := by
  unfold State.takeStationFrame
  rw [if_neg hbeacon, if_neg htrigger, if_neg hevent]

/-- Settles O47: by the kind of the frame and its destination. -/
theorem peerFramesReachTheirBlocksInOrder : Obligations.PeerFramesReachTheirBlocksInOrder := by
  rintro s w dt stamp src dst payload hline hsrc hown rfl
  refine ⟨fun hf => ⟨fun hdst hall => ?_, fun hdst => ?_⟩, fun hf => ⟨fun hdst hall => ?_, fun hdst => ?_⟩,
    fun hf => ⟨fun hdst hall => ?_, fun hdst => ?_⟩, fun kind hf hcase => ?_, fun kind hf haddress => ?_⟩
  case refine_1 => exact congrArg Host.Outcome.next (State.receive_peer_elsewhere hline hf hsrc hown hdst hall)
  case refine_3 => exact congrArg Host.Outcome.next (State.receive_peer_elsewhere hline hf hsrc hown hdst hall)
  case refine_5 => exact congrArg Host.Outcome.next (State.receive_peer_elsewhere hline hf hsrc hown hdst hall)
  case refine_2 =>
    have htaken := State.receive_peer_here (dt := dt) hline hf hsrc hown hdst
    rw [State.takeStationFrame_beacon] at htaken
    unfold State.takeBeacon at htaken
    refine ⟨fun hparse => ?_, fun b hparse => ?_⟩
    all_goals
      rw [hparse] at htaken
      exact congrArg Host.Outcome.next htaken
  case refine_4 =>
    have htaken := State.receive_peer_here (dt := dt) hline hf hsrc hown hdst
    rw [State.takeStationFrame_trigger] at htaken
    refine ⟨fun hparse => ?_, fun b hparse => ?_⟩
    all_goals
      rw [hparse] at htaken
      exact congrArg Host.Outcome.next htaken
  case refine_6 =>
    have htaken := State.receive_peer_here (dt := dt) hline hf hsrc hown hdst
    rw [State.takeStationFrame_event] at htaken
    refine ⟨fun hparse => ?_, fun b hparse => ?_⟩
    all_goals
      rw [hparse] at htaken
      exact congrArg Host.Outcome.next htaken
  case refine_7 =>
    refine congrArg Host.Outcome.next ?_
    rcases hcase with ⟨hbeacon, htrigger, hevent⟩ | ⟨hdst, hall⟩
    · rw [State.receive_peer hline hf hsrc hown, State.takeStationFrame_other hbeacon htrigger hevent, ite_self]
    · exact State.receive_peer_elsewhere hline hf hsrc hown hdst hall
  case refine_8 =>
    refine congrArg Host.Outcome.next ?_
    rw [State.receive_valid (stamp := stamp) _ (by simpa using hline) hf]
    unfold State.dispatch
    rw [State.accepted_addressByte, if_neg haddress.symm, if_pos rfl]

end Sys2Proof.Machine
end

section
/-!
The service requests (chapter 8): a request taken or ignored, the reply slot, and the requests that read.
-/

namespace Sys2Proof.Machine

/-! ## Taking a request (R147) -/

/-- A request received valid is taken in the state after its reception. -/
theorem State.receive_request {s : State} {stamp : Nat} {kind dst : Byte} {payload : List Byte} (dt : Nat)
    (take : Nat → State → State) (hline : s.lc.line = .receiving (some stamp)) (hdst : dst ≠ 0#8)
    (hallowed : lengthAllowed kind payload.length = true) (hlength : payload.length ≤ 64) :
    (s.advance dt).receive (requestFrame kind dst payload) take = take stamp (State.acceptReception (s.advance dt)) :=
  State.receive_valid take (by simpa using hline) (requestFrame_valid hallowed hdst hlength)

theorem State.accepted_rh (s : State) (dt : Nat) : (State.acceptReception (s.advance dt)).rh = s.rh := by simp

/-- A request for this station alone is taken when it is addressed to it and no restart is owed. -/
theorem State.takeAddressed_here {s : State} {dst : Byte} (dt : Nat) (take : State → State) (hdst : dst = s.addressByte)
    (howed : s.rh.restartOwed = false) : State.takeAddressed dst take (State.acceptReception (s.advance dt)) =
      take (State.acceptReception (s.advance dt)) := by
  rw [State.takeAddressed_eq, State.accepted_addressByte, State.accepted_rh, if_pos ⟨hdst, howed⟩]

theorem State.takeAddressed_ignored {s : State} {dst : Byte} (dt : Nat) (take : State → State)
    (h : dst ≠ s.addressByte ∨ s.rh.restartOwed = true) :
    State.takeAddressed dst take (State.acceptReception (s.advance dt)) = State.acceptReception (s.advance dt) := by
  rw [State.takeAddressed_eq, State.accepted_addressByte, State.accepted_rh, if_neg]
  rintro ⟨hdst, howed⟩
  rcases h with h | h
  · exact h hdst
  · rw [howed] at h
    cases h

/-! ## The requests as they are taken -/

section

variable {s : State} {stamp : Nat} {dst : Byte}

theorem exec_query_valid (dt : Nat) (page : Byte) (hline : s.lc.line = .receiving (some stamp)) (hdst : dst ≠ 0#8) :
    exec (.query dt dst page) s =
      .next (State.takeAddressed dst (State.takeQuery page) (State.acceptReception (s.advance dt))) :=
  congrArg Host.Outcome.next (State.receive_request dt _ hline hdst rfl (by simp))

theorem exec_fetch_valid (dt : Nat) (start : BitVec 32) (hline : s.lc.line = .receiving (some stamp)) (hdst : dst ≠ 0#8) :
    exec (.fetch dt dst start) s =
      .next (State.takeAddressed dst (State.takeFetch start.toNat) (State.acceptReception (s.advance dt))) :=
  congrArg Host.Outcome.next (State.receive_request dt _ hline hdst rfl (by simp))

theorem exec_peers_valid (dt : Nat) (hline : s.lc.line = .receiving (some stamp)) (hdst : dst ≠ 0#8) :
    exec (.peers dt dst) s =
      .next (State.takeAddressed dst State.takePeers (State.acceptReception (s.advance dt))) :=
  congrArg Host.Outcome.next (State.receive_request dt _ hline hdst rfl (by simp))

theorem exec_force_valid (dt : Nat) (hline : s.lc.line = .receiving (some stamp)) (hdst : dst ≠ 0#8) :
    exec (.force dt dst) s =
      .next (State.takeAddressed dst State.takeForce (State.acceptReception (s.advance dt))) :=
  congrArg Host.Outcome.next (State.receive_request dt _ hline hdst rfl (by simp))

theorem exec_restart_valid (dt : Nat) (hline : s.lc.line = .receiving (some stamp)) (hdst : dst ≠ 0#8) :
    exec (.restart dt dst) s =
      .next (State.takeAddressed dst State.takeRestart (State.acceptReception (s.advance dt))) :=
  congrArg Host.Outcome.next (State.receive_request dt _ hline hdst rfl (by simp))

theorem exec_release_valid (dt : Nat) (origin serial : Byte) (hline : s.lc.line = .receiving (some stamp))
    (hdst : dst ≠ 0#8) : exec (.release dt dst origin serial) s =
      .next (State.takeEither dst (fun toAll => State.takeRelease toAll origin.toNat serial.toNat)
        (State.acceptReception (s.advance dt))) :=
  congrArg Host.Outcome.next (State.receive_request dt _ hline hdst rfl (by simp))

theorem exec_setupEnd_valid (dt : Nat) (levels : BitVec 12) (hline : s.lc.line = .receiving (some stamp))
    (hdst : dst ≠ 0#8) : exec (.setupEnd dt dst levels) s =
      .next (State.takeEither dst (fun toAll => State.takeSetupEnd toAll levels)
        (State.acceptReception (s.advance dt))) :=
  congrArg Host.Outcome.next (State.receive_request dt _ hline hdst rfl (by simp))

theorem exec_config_valid (dt : Nat) {payload : List Byte} (hline : s.lc.line = .receiving (some stamp))
    (hdst : dst ≠ 0#8) (hpos : 1 ≤ payload.length) (hlength : payload.length ≤ 64) :
    exec (.config dt dst payload) s =
      .next (State.takeEither dst (fun toAll => State.takeConfig toAll payload)
        (State.acceptReception (s.advance dt))) := by
  have hallowed : lengthAllowed kindConfig payload.length = true :=
    Bool.and_eq_true_iff.mpr ⟨decide_eq_true hpos, decide_eq_true hlength⟩
  exact congrArg Host.Outcome.next (State.receive_request dt _ hline hdst hallowed hlength)

end

/-! ## The reply slot (R150, R151) -/

theorem Attempts.put_reply (a : Attempts) (n : Nat) : a.put .reply n = { a with reply := n } := rfl

/-- While nothing is staged or sent, a reply takes the slot and its attempt count starts from 0. -/
theorem State.placeReply_eq {v : State} (hline : v.lc.line = .quiet ∨ v.lc.line = .backoff) (kind : Byte)
    (payload : List Byte) : v.placeReply kind payload = { v with
      rh := { v.rh with slot := some { kind, src := v.addressByte, dst := 31#8, payload } }
      lc := { v.lc with attempts := { v.lc.attempts with reply := 0 } } } := by
  unfold State.placeReply State.endReply
  cases hslot : v.rh.slot with
  | none => rfl
  | some f =>
    have hended : v.lc.endItem .reply = { v.lc with attempts := v.lc.attempts.put .reply 0 } := by
      unfold LineController.endItem
      rcases hline with h | h <;> simp only [h]
    simp only [hended, Attempts.put_reply]
    rfl

/-! ## What the replies carry (R157, R158, R186) -/

theorem presenceByte_eq (d : Draft) (horigin : d.origin ≤ 30) : presenceByte d =
    BitVec.ofNat 8 ((if d.originSeq = none then 0 else 128) + (if d.value = none then 0 else 64) +
      (if d.subject = none then 0 else 32) + d.origin) := by
  have hmod : d.origin % 32 = d.origin := Nat.mod_eq_of_lt (by omega)
  unfold presenceByte byteOf
  rw [hmod]
  cases d.originSeq <;> cases d.value <;> cases d.subject <;> rfl

theorem SyncState.code_le (x : SyncState) : x.code ≤ 2 := by cases x <;> decide

theorem CaptureCode.code_le (x : CaptureCode) : x.code ≤ 3 := by cases x <;> decide

/-- The report of the own address, and of a peer by what is known of it. -/
theorem State.peerReport_own {s : State} : (s.peerReport s.address).toNat =
    128 + 16 * s.tu.sync.code + s.cc.record.st.name.code := by
  unfold State.peerReport
  rw [if_pos rfl]
  exact byteOf_toNat (by
    have := s.tu.sync.code_le
    have := s.cc.record.st.name.code_le
    omega)

theorem State.peerReport_peer {s : State} {a : Nat} {p : PeerEntry} (ha : 1 ≤ a) (hown : a ≠ s.address)
    (hp : s.pm.peers[a - 1]? = some p) :
    (∀ b, p.present = true → p.beacon = some b → (s.peerReport a).toNat = 64 + 16 * b.sync.code + b.capture.code) ∧
    (p.present = true → p.beacon = none → (s.peerReport a).toNat = 64 + 16 * 3 + 7) ∧
    (p.present = false → (s.peerReport a).toNat = 16 * 3 + 7) := by
  have hpeer : s.peer a = some p := (State.peer_eq ha s).trans hp
  unfold State.peerReport
  rw [if_neg hown, hpeer]
  refine ⟨fun b hpresent hbeacon => ?_, fun hpresent hbeacon => ?_, fun hpresent => ?_⟩
  · simp only [hpresent, hbeacon, if_true]
    exact byteOf_toNat (by
      have := b.sync.code_le
      have := b.capture.code_le
      omega)
  · simp only [hpresent, hbeacon, if_true]
    rfl
  · simp only [hpresent, Bool.false_eq_true, if_false]
    rfl

/-- Settles O48: the three requests, and the layout of their replies. -/
theorem readingRequestsPlaceTheirReplies : Obligations.ReadingRequestsPlaceTheirReplies := by
  refine ⟨?_, fun s start outcome entries h => ?_, fun d horigin => ?_,
    ⟨rfl, rfl, rfl, rfl, fun n ch => ⟨rfl, rfl, rfl⟩, rfl, rfl, rfl⟩, fun s a ha hle => ⟨?_, fun p hown hp =>
      State.peerReport_peer ha hown hp⟩⟩
  · rintro s w dt stamp dst page start hline hdst rfl
    refine ⟨fun hignored => ⟨?_, ?_, ?_⟩, fun hown howed => ⟨?_, ?_, ?_⟩, fun v kind payload hquiet =>
      State.placeReply_eq hquiet kind payload⟩
    · rw [exec_query_valid dt page hline hdst, State.takeAddressed_ignored dt _ hignored]
    · rw [exec_fetch_valid dt start hline hdst, State.takeAddressed_ignored dt _ hignored]
    · rw [exec_peers_valid dt hline hdst, State.takeAddressed_ignored dt _ hignored]
    · rw [exec_query_valid dt page hline hdst, State.takeAddressed_here dt _ hown howed]
      rfl
    · rw [exec_fetch_valid dt start hline hdst, State.takeAddressed_here dt _ hown howed]
      rfl
    · rw [exec_peers_valid dt hline hdst, State.takeAddressed_here dt _ hown howed]
      rfl
  · unfold State.entriesPayload
    rw [h]
    cases outcome <;> rfl
  · obtain ⟨time, origin, originSeq, kind, subject, value, capture, sync⟩ := d
    unfold recordBytes
    rw [presenceByte_eq _ horigin]
    congr 1
    · cases sync <;> rfl
    · rcases capture with _ | ⟨serial, cause | adopted | _ | ⟨unrecorded, reason⟩⟩
      case none => rfl
      case some.marked => rfl
      case some.seen => cases adopted <;> rfl
      case some.notSent => rfl
      case some.released => cases reason <;> rfl
  · rintro rfl
    exact State.peerReport_own

end Sys2Proof.Machine
end

section
/-!
The STATE pages (R154 to R156, Table 10-15): where each figure stands, and that it fits.
-/

namespace Sys2Proof.Machine

theorem OperatingState.code_le (x : OperatingState) : x.code ≤ 3 := by cases x <;> decide

theorem ResetCause.code_le (x : ResetCause) : x.code ≤ 3 := by cases x <;> decide

theorem FreezeReason.code_le (x : FreezeReason) : x.code ≤ 3 := by cases x <;> decide

theorem Conditions.code_eq (c : Conditions) : c.code =
    (if c.startFault then 1 else 0) + (if c.analogFault then 2 else 0) + (if c.lineStuck then 4 else 0) +
      (if c.addressClash then 8 else 0) + (if c.supplyWarning then 16 else 0) := by
  simp only [Conditions.code, Bool.toNat, Bool.cond_eq_ite, mul_ite, mul_one, mul_zero]

theorem Conditions.code_lt (c : Conditions) : c.code < 256 := by
  have := c.startFault.toNat_le
  have := c.analogFault.toNat_le
  have := c.lineStuck.toNat_le
  have := c.addressClash.toNat_le
  have := c.supplyWarning.toNat_le
  unfold Conditions.code
  omega

theorem timedTagBytes_length (t : TimedTag) : (timedTagBytes t).length = 8 := by simp [timedTagBytes]

/-! ## Page 0 -/

/-- The bytes of page 0 by their places, told apart by the capture state. -/
theorem State.page0_places (s : State) :
    s.page0.length = 30 ∧ s.page0.getD 0 0#8 = byteOf 0 ∧ s.page0.getD 1 0#8 = byteOf s.address ∧
    s.page0.getD 2 0#8 = byteOf 0x16 ∧ s.page0.getD 3 0#8 = byteOf 1 ∧ s.page0.getD 4 0#8 = byteOf s.sc.op.code ∧
    s.page0.getD 5 0#8 = byteOf s.sc.cause.code ∧ s.page0.getD 6 0#8 = byteOf s.tu.sync.code ∧
    slice s.page0 7 6 = natBE 6 s.tu.timeCount ∧ s.page0.getD 13 0#8 = byteOf s.cc.record.st.name.code ∧
    slice s.page0 27 2 = natBE 2 s.cc.record.postWritten := by
  unfold State.page0
  cases s.cc.record.st with
  | off => exact ⟨rfl, rfl, rfl, rfl, rfl, rfl, rfl, rfl, rfl, rfl, rfl⟩
  | armed => exact ⟨rfl, rfl, rfl, rfl, rfl, rfl, rfl, rfl, rfl, rfl, rfl⟩
  | post cur => exact ⟨rfl, rfl, rfl, rfl, rfl, rfl, rfl, rfl, rfl, rfl, rfl⟩
  | frozen cur why => exact ⟨rfl, rfl, rfl, rfl, rfl, rfl, rfl, rfl, rfl, rfl, rfl⟩

theorem State.page0_capture (s : State) :
    (s.cc.record.st.current = none → slice s.page0 14 13 = List.replicate 13 0#8) ∧
    (∀ cur, s.cc.record.st.current = some cur → slice s.page0 14 13 =
      [BitVec.ofNat 8 cur.tag.origin, BitVec.ofNat 8 cur.tag.serial] ++ natBE 6 cur.triggerTime ++
        [BitVec.ofNat 8 cur.cause.code] ++ natBE 4 cur.markSeq) := by
  unfold State.page0
  cases s.cc.record.st with
  | off => exact ⟨fun _ => rfl, nofun⟩
  | armed => exact ⟨fun _ => rfl, nofun⟩
  | post cur => exact ⟨nofun, fun _ h => Option.some.inj h ▸ rfl⟩
  | frozen cur why => exact ⟨nofun, fun _ h => Option.some.inj h ▸ rfl⟩

theorem State.page0_freeze (s : State) :
    (s.cc.record.st.isFrozen = false → byteAt s.page0 29 = 0) ∧
    (∀ cur why, s.cc.record.st = .frozen cur why → byteAt s.page0 29 = why.code) := by
  unfold State.page0
  cases s.cc.record.st with
  | off => exact ⟨fun _ => rfl, nofun⟩
  | armed => exact ⟨fun _ => rfl, nofun⟩
  | post cur => exact ⟨fun _ => rfl, nofun⟩
  | frozen cur reason =>
    refine ⟨nofun, fun cur' why h => ?_⟩
    obtain ⟨-, rfl⟩ := CaptureState.frozen.inj h
    exact byteAt_eq rfl (by have := reason.code_le; omega)

/-! ## Pages 1 and 2 -/

theorem State.page2_length (s : State) : s.page2.length = 3 + 8 * s.cc.record.seen.length := by
  have htags : (s.cc.record.seen.flatMap timedTagBytes).length = 8 * s.cc.record.seen.length := by
    simp only [List.length_flatMap, timedTagBytes_length, List.map_const', List.sum_replicate, smul_eq_mul]
    omega
  simp only [State.page2, List.length_append, htags]
  rfl

theorem Ring.Sound.seqs_fit {r : Ring} (h : r.Sound) : r.oldestSeq < 256 ^ 4 ∧ r.newestSeq < 256 ^ 4 ∧ r.held < 256 ^ 2 := by
  have hbelow := h.heldBelow
  have hmax := h.seqMax
  have hheld := h.heldMax
  simp only [seqLimit] at hmax
  simp only [ringSize] at hheld
  unfold Ring.oldestSeq Ring.newestSeq
  refine ⟨?_, ?_, by omega⟩
  all_goals
    split
    · decide
    · omega

/-- Settles O49: the codes, then each figure at its place and within its field. -/
theorem statePagesCarryTheirFigures : Obligations.StatePagesCarryTheirFigures := by
  refine ⟨⟨rfl, rfl, rfl, rfl, fun cur why => rfl, fun n ch => ⟨rfl, rfl, rfl⟩, rfl, Conditions.code_eq, fun t => rfl⟩, ?_⟩
  intro s htime hring hline hrouter hcapture
  obtain ⟨hlength, h0, h1, h2, h3, h4, h5, h6, h7, h13, h27⟩ := s.page0_places
  obtain ⟨hnone, hsome⟩ := s.page0_capture
  obtain ⟨hunfrozen, hfrozen⟩ := s.page0_freeze
  obtain ⟨holdest, hnewest, hheld⟩ := hring.seqs_fit
  have haddress : s.address < 256 := lt_of_lt_of_le s.sc.straps.address.isLt (by decide)
  have hqueue := hrouter.queueMax
  have hseen := hcapture.seenMax
  have htop : timeTop < 256 ^ 6 := by decide
  have htop16 : top16 < 256 ^ 2 := by decide
  have htop8 : top8 < 256 := by decide
  simp only [queueSize] at hqueue
  simp only [seenSize] at hseen
  refine ⟨hlength, rfl, s.page2_length, byteAt_eq h0 (by decide), byteAt_eq h1 haddress, byteAt_eq h2 (by decide),
    byteAt_eq h3 (by decide), byteAt_eq h4 (lt_of_le_of_lt s.sc.op.code_le (by decide)),
    byteAt_eq h5 (lt_of_le_of_lt s.sc.cause.code_le (by decide)),
    byteAt_eq h6 (lt_of_le_of_lt s.tu.sync.code_le (by decide)), fieldAt_eq h7 (lt_of_le_of_lt htime htop),
    byteAt_eq h13 (lt_of_le_of_lt s.cc.record.st.name.code_le (by decide)),
    fieldAt_eq h27 (lt_of_le_of_lt hcapture.writtenMax (by decide)), hnone, hsome, hunfrozen, hfrozen,
    byteAt_eq rfl (by decide), fieldAt_eq rfl holdest, fieldAt_eq rfl hnewest, fieldAt_eq rfl hheld,
    byteAt_eq rfl s.sc.conditions.code_lt, fieldAt_eq rfl (lt_of_le_of_lt hline.goodMax htop16),
    fieldAt_eq rfl (lt_of_le_of_lt hline.brokenMax htop16), fieldAt_eq rfl (lt_of_le_of_lt hline.collisionsMax htop16),
    fieldAt_eq rfl (lt_of_le_of_lt hline.abandonedMax htop16), byteAt_eq rfl (by omega),
    byteAt_eq rfl (lt_of_le_of_lt hrouter.dropsMax htop8), byteAt_eq rfl (lt_of_le_of_lt hcapture.retagMax htop8),
    fieldAt_eq rfl (lt_of_le_of_lt hcapture.unrecordedMax htop16), byteAt_eq rfl (by decide), byteAt_eq rfl (by omega),
    byteAt_eq rfl (lt_of_le_of_lt s.cc.record.overflow.toNat_le (by decide)), rfl⟩

end Sys2Proof.Machine
end

section
/-!
The service requests that act (R41, R43, R151, R159 to R163, R175).
-/

namespace Sys2Proof.Machine

/-! ## Requests that a broadcast brings too -/

/-- The destinations of a request this station takes, addressed or broadcast, are not 0. -/
theorem dst_ne_zero {s : State} {dst : Byte} (h : dst = s.addressByte ∧ dst ≠ 0#8 ∧ dst ≠ 31#8 ∨ dst = 31#8) :
    dst ≠ 0#8 := by
  rcases h with ⟨-, h, -⟩ | rfl
  · exact h
  · decide

theorem State.takeEither_here {s : State} {dst : Byte} (dt : Nat) (take : Bool → State → State)
    (h : dst = s.addressByte ∧ dst ≠ 0#8 ∧ dst ≠ 31#8 ∨ dst = 31#8) (howed : s.rh.restartOwed = false) :
    State.takeEither dst take (State.acceptReception (s.advance dt)) =
      take (dst == 31#8) (State.acceptReception (s.advance dt)) := by
  refine State.takeEither_eq take (by rw [State.accepted_rh]; exact howed) ?_
  rw [State.accepted_addressByte]
  exact h.imp_left fun ⟨hown, _, hall⟩ => ⟨hown, hall⟩

theorem State.takeEither_elsewhere {s : State} {dst : Byte} (dt : Nat) (take : Bool → State → State)
    (hown : dst ≠ s.addressByte) (hall : dst ≠ 31#8) :
    State.takeEither dst take (State.acceptReception (s.advance dt)) = State.acceptReception (s.advance dt) := by
  unfold State.takeEither
  rw [State.accepted_addressByte, if_neg (show dst ≠ broadcast from hall), if_neg hown, ite_self]

/-- The answer, addressed or broadcast (R151). -/
theorem State.answer_addressed {dst : Byte} (h : dst ≠ 31#8) (request : Byte) (code : ResultCode) (s : State) :
    s.answer (dst == 31#8) request code = s.placeReply kindResult [request, code.code] := by
  rw [beq_false_of_ne h]
  rfl

theorem State.answer_broadcast (request : Byte) (code : ResultCode) (s : State) :
    s.answer (31#8 == 31#8) request code = s.endReply := rfl

/-! ## RELEASE (R41, R159) -/

theorem State.releaseCode_unfrozen {s : State} {origin serial : Nat} (hrange : ¬(30 < origin ∨ 1 ≤ origin ∧ serial = 0))
    (h : s.cc.record.st.isFrozen = false) : s.releaseCode origin serial = .wrongState := by
  unfold State.releaseCode
  rw [if_neg hrange]
  split
  case h_4 hst => simp [hst, CaptureState.isFrozen] at h
  all_goals rfl

theorem State.releaseCode_frozen {s : State} {origin serial : Nat} {cur : Current} {why : FreezeReason}
    (hrange : ¬(30 < origin ∨ 1 ≤ origin ∧ serial = 0)) (h : s.cc.record.st = .frozen cur why) :
    s.releaseCode origin serial =
      if origin = 0 ∨ cur.tag = { origin, serial } then .done else .tagMismatch := by
  unfold State.releaseCode
  rw [if_neg hrange]
  simp only [h]
  by_cases hany : origin = 0 <;> simp [hany]

/-- A release's code and what it does to the state, in the terms of O50's hypotheses. -/
theorem State.releaseCode_spec {w v : State} {origin serial code : Byte}
    (hrange : 30 < origin.toNat ∨ (1 ≤ origin.toNat ∧ serial = 0#8) → code = 3#8 ∧ v = w)
    (hnamed : origin = 0#8 ∨ (1 ≤ origin.toNat ∧ origin.toNat ≤ 30 ∧ serial ≠ 0#8) →
      (w.cc.record.st.isFrozen = false → code = 1#8 ∧ v = w) ∧
      (∀ cur why, w.cc.record.st = .frozen cur why →
        (origin = 0#8 ∨ cur.tag = { origin := origin.toNat, serial := serial.toNat } →
          code = 0#8 ∧ v = w.release .request) ∧
        (origin ≠ 0#8 → cur.tag ≠ { origin := origin.toNat, serial := serial.toNat } → code = 2#8 ∧ v = w))) :
    code = (w.releaseCode origin.toNat serial.toNat).code ∧
      v = if w.releaseCode origin.toNat serial.toNat = .done then w.release .request else w := by
  have hserial : serial = 0#8 ↔ serial.toNat = 0 := by bv_omega
  have horigin : origin = 0#8 ↔ origin.toNat = 0 := by bv_omega
  rw [hserial] at hrange
  by_cases hout : 30 < origin.toNat ∨ 1 ≤ origin.toNat ∧ serial.toNat = 0
  · have hcode : w.releaseCode origin.toNat serial.toNat = .outOfRange := by
      unfold State.releaseCode
      rw [if_pos hout]
    obtain ⟨rfl, rfl⟩ := hrange hout
    simp [hcode, ResultCode.code]
  · obtain ⟨hopen, hfrozen⟩ := hnamed (by rw [ne_eq, hserial, horigin]; omega)
    cases hst : w.cc.record.st.isFrozen with
    | false =>
      obtain ⟨rfl, rfl⟩ := hopen hst
      simp [State.releaseCode_unfrozen hout hst, ResultCode.code]
    | true =>
      obtain ⟨cur, why, hst⟩ : ∃ cur why, w.cc.record.st = .frozen cur why := by
        cases h : w.cc.record.st with
        | frozen cur why => exact ⟨cur, why, rfl⟩
        | off | armed | post => simp [h, CaptureState.isFrozen] at hst
      obtain ⟨hmatch, hother⟩ := hfrozen cur why hst
      rw [horigin] at hmatch
      rw [ne_eq, horigin] at hother
      rw [State.releaseCode_frozen hout hst]
      by_cases hnames : origin.toNat = 0 ∨ cur.tag = { origin := origin.toNat, serial := serial.toNat }
      · obtain ⟨rfl, rfl⟩ := hmatch hnames
        simp [hnames, ResultCode.code]
      · obtain ⟨hany, htag⟩ := not_or.mp hnames
        obtain ⟨rfl, rfl⟩ := hother hany htag
        simp [hany, htag, ResultCode.code]

/-- Settles O50: the code and the state it leaves, then the answer. -/
theorem releaseIsDecidedAgainstTheRecord : Obligations.ReleaseIsDecidedAgainstTheRecord := by
  rintro s w v dt stamp dst origin serial code hline hdst howed rfl hrange hnamed
  obtain ⟨hcode, hv⟩ := State.releaseCode_spec hrange (by simpa using hnamed)
  have hexec : exec (.release dt dst origin serial) s = .next (v.answer (dst == 31#8) kindRelease
      ((State.acceptReception (s.advance dt)).releaseCode origin.toNat serial.toNat)) := by
    rw [exec_release_valid dt origin serial hline (dst_ne_zero hdst), State.takeEither_here dt _ hdst howed, hv]
    rfl
  rw [hexec, hcode]
  refine ⟨fun hall => ?_, fun hall => ?_⟩
  · rw [hall, State.answer_broadcast]
  · rw [State.answer_addressed hall]
    rfl

/-! ## FORCE (R43, R160) -/

theorem exec_force_taken {s : State} {stamp : Nat} {dst : Byte} (dt : Nat) (hline : s.lc.line = .receiving (some stamp))
    (hdst : dst ≠ 0#8) (hown : dst = s.addressByte) (howed : s.rh.restartOwed = false) :
    exec (.force dt dst) s = .next (State.acceptReception (s.advance dt)).takeForce := by
  rw [exec_force_valid dt hline hdst, State.takeAddressed_here dt _ hown howed]

/-- Settles O51: by the operating state and the capture state. -/
theorem forceOriginatesFromArmed : Obligations.ForceOriginatesFromArmed := by
  rintro s w dt stamp dst hline hdst howed rfl
  refine ⟨fun hother => ?_, fun hown => ?_⟩
  · rw [exec_force_valid dt hline hdst, State.takeAddressed_ignored dt _ (.inl hother)]
  · rw [exec_force_taken dt hline hdst hown howed]
    have hop : (State.acceptReception (s.advance dt)).sc.op = s.sc.op := by simp
    have hst : (State.acceptReception (s.advance dt)).cc.record.st = s.cc.record.st := by simp
    unfold State.takeForce
    rw [hop]
    refine ⟨fun hrunning harmed => ?_, fun hrunning hheld => ?_, fun hrunning hoff => ?_, fun hsetup => ?_⟩
    · rw [if_pos hrunning, hst, harmed]
      rfl
    · rw [if_pos hrunning, hst]
      obtain ⟨cur, h⟩ | ⟨cur, why, h⟩ := CaptureState.held_cases hheld
      all_goals
        rw [h]
        rfl
    · rw [if_pos hrunning, hst, hoff]
      rfl
    · rw [if_neg (by rw [hsetup]; decide)]
      rfl

end Sys2Proof.Machine
end

section
/-!
CONFIG (R161, R173, R175) and the bytes of its sections (R176 to R178, Tables 10-17 to 10-19).
-/

namespace Sys2Proof.Machine

/-! ## Bytes and their bits -/

theorem byteAt_lt (bs : List Byte) (i : Nat) : byteAt bs i < 256 := (bs.getD i 0#8).isLt

theorem getLsbD_eq_decide (b : Byte) (k : Nat) : b.getLsbD k = decide (b.toNat / 2 ^ k % 2 = 1) :=
  Nat.testBit_eq_decide_div_mod_eq

theorem parseBool_iff (n : Nat) (b : Bool) : parseBool n = some b ↔ n ≤ 1 ∧ b = decide (n = 1) := by
  match n with
  | 0 => simp [parseBool, eq_comm]
  | 1 => simp [parseBool, eq_comm]
  | k + 2 => simp [parseBool]

theorem Sensitivity.ofCode_iff (c : Nat) (x : Sensitivity) : Sensitivity.ofCode c = some x ↔
    c = 0 ∧ x = .off ∨ c = 1 ∧ x = .rise ∨ c = 2 ∧ x = .fall ∨ c = 3 ∧ x = .both := by
  match c with
  | 0 => simp [Sensitivity.ofCode, eq_comm]
  | 1 => simp [Sensitivity.ofCode, eq_comm]
  | 2 => simp [Sensitivity.ofCode, eq_comm]
  | 3 => simp [Sensitivity.ofCode, eq_comm]
  | n + 4 => simp [Sensitivity.ofCode]

/-! ## Input settings (R176, Table 10-17) -/

theorem InputSetting.valid_iff (x : InputSetting) : x.valid = true ↔
    x.qualify ≤ 255 ∧ (x.repeatEvery = 0 ∨ x.repeatEvery ≤ 255 ∧ (x.sensitivity = .rise ∨ x.sensitivity = .fall)) ∧
    (x.chatterLimit = 0 ∨ 4 ≤ x.chatterLimit ∧ x.chatterLimit ≤ 60) ∧ 1 ≤ x.chatterRest ∧ x.chatterRest ≤ 15 := by
  simp [InputSetting.valid, and_assoc]

theorem parseInput_iff_valid (b : List Byte) (x : InputSetting) : parseInput b = some x ↔
    Sensitivity.ofCode (byteAt b 0 % 128) = some x.sensitivity ∧ x.trigger = decide (128 ≤ byteAt b 0) ∧
    x.qualify = byteAt b 1 ∧ x.repeatEvery = byteAt b 2 ∧ x.chatterLimit = byteAt b 3 ∧ x.chatterRest = byteAt b 4 ∧
    x.valid = true := by
  unfold parseInput
  dsimp only
  cases hcode : Sensitivity.ofCode (byteAt b 0 % 128) with
  | none => simp
  | some sensitivity =>
    have hlow : byteAt b 0 % 128 < 4 := by
      have := (Sensitivity.ofCode_iff _ _).mp hcode
      omega
    simp only [if_pos hlow, Option.ite_none_right_eq_some, Option.some.injEq]
    constructor
    · rintro ⟨hvalid, rfl⟩
      exact ⟨rfl, rfl, rfl, rfl, rfl, rfl, hvalid⟩
    · obtain ⟨sens, qualify, repeatEvery, chatterLimit, chatterRest, trigger⟩ := x
      rintro ⟨rfl, rfl, rfl, rfl, rfl, rfl, hvalid⟩
      exact ⟨hvalid, rfl⟩

/-- An input setting read from its five bytes. -/
theorem parseInput_iff (b : List Byte) (x : InputSetting) : parseInput b = some x ↔
    x.trigger = decide (128 ≤ byteAt b 0) ∧
    (byteAt b 0 % 128 = 0 ∧ x.sensitivity = .off ∨ byteAt b 0 % 128 = 1 ∧ x.sensitivity = .rise ∨
      byteAt b 0 % 128 = 2 ∧ x.sensitivity = .fall ∨ byteAt b 0 % 128 = 3 ∧ x.sensitivity = .both) ∧
    x.qualify = byteAt b 1 ∧ x.repeatEvery = byteAt b 2 ∧ x.chatterLimit = byteAt b 3 ∧ x.chatterRest = byteAt b 4 ∧
    (x.repeatEvery = 0 ∨ x.sensitivity = .rise ∨ x.sensitivity = .fall) ∧
    (x.chatterLimit = 0 ∨ 4 ≤ x.chatterLimit ∧ x.chatterLimit ≤ 60) ∧ 1 ≤ x.chatterRest ∧ x.chatterRest ≤ 15 := by
  rw [parseInput_iff_valid, Sensitivity.ofCode_iff, InputSetting.valid_iff]
  have hqualify : byteAt b 1 ≤ 255 := Nat.lt_succ_iff.mp (byteAt_lt b 1)
  have hrepeat : byteAt b 2 ≤ 255 := Nat.lt_succ_iff.mp (byteAt_lt b 2)
  constructor
  · rintro ⟨hcode, htrigger, h1, h2, h3, h4, -, hrep, hlimit, hrest⟩
    exact ⟨htrigger, hcode, h1, h2, h3, h4, hrep.imp_right And.right, hlimit, hrest⟩
  · rintro ⟨htrigger, hcode, h1, h2, h3, h4, hrep, hlimit, hrest⟩
    exact ⟨hcode, htrigger, h1, h2, h3, h4, h1 ▸ hqualify, hrep.imp_right fun h => ⟨h2 ▸ hrepeat, h⟩, hlimit, hrest⟩

theorem parseInputs_iff (body : List Byte) (xs : List InputSetting) : parseInputs body = some xs ↔ xs.length = 6 ∧
    ∀ (i flags : Nat) (x : InputSetting), i < 6 → flags = byteAt body (5 * i) → xs[i]? = some x →
      x.trigger = decide (128 ≤ flags) ∧
      (flags % 128 = 0 ∧ x.sensitivity = .off ∨ flags % 128 = 1 ∧ x.sensitivity = .rise ∨
        flags % 128 = 2 ∧ x.sensitivity = .fall ∨ flags % 128 = 3 ∧ x.sensitivity = .both) ∧
      x.qualify = byteAt body (5 * i + 1) ∧ x.repeatEvery = byteAt body (5 * i + 2) ∧
      x.chatterLimit = byteAt body (5 * i + 3) ∧ x.chatterRest = byteAt body (5 * i + 4) ∧
      (x.repeatEvery = 0 ∨ x.sensitivity = .rise ∨ x.sensitivity = .fall) ∧
      (x.chatterLimit = 0 ∨ 4 ≤ x.chatterLimit ∧ x.chatterLimit ≤ 60) ∧
      1 ≤ x.chatterRest ∧ x.chatterRest ≤ 15 := by
  unfold parseInputs
  rw [allSome_range_iff]
  refine and_congr_right fun _ => forall_congr' fun i => ?_
  simp only [parseInput_iff, byteAt_slice, Nat.lt_add_one, Nat.reduceLT, Nat.add_zero]
  constructor
  · rintro h flags x hi rfl hx
    exact h x hi hx
  · intro h x hi hx
    exact h _ x hi rfl hx

/-! ## The ANALOG section (R177, Table 10-18) -/

theorem ChannelSetting.valid_iff (x : ChannelSetting) : x.valid = true ↔
    x.high ≤ 4095 ∧ x.low < x.high ∧ x.hysteresis ≤ 255 ∧ x.hysteresis < x.high - x.low ∧ 1 ≤ x.qualifyScans ∧
    x.qualifyScans ≤ 16 := by
  simp [ChannelSetting.valid, and_assoc]

/-- A channel setting read from its seven bytes. -/
theorem parseChannel_iff (b : List Byte) (x : ChannelSetting) : parseChannel b = some x ↔
    byteAt b 0 < 16 ∧ x.enable = decide (byteAt b 0 % 2 = 1) ∧ x.triggerHigh = decide (byteAt b 0 / 2 % 2 = 1) ∧
    x.triggerLow = decide (byteAt b 0 / 4 % 2 = 1) ∧ x.snapshot = decide (byteAt b 0 / 8 % 2 = 1) ∧
    x.high = fieldAt b 1 2 ∧ x.low = fieldAt b 3 2 ∧ x.hysteresis = byteAt b 5 ∧ x.qualifyScans = byteAt b 6 ∧
    x.high ≤ 4095 ∧ x.low < x.high ∧ x.hysteresis < x.high - x.low ∧ 1 ≤ x.qualifyScans ∧ x.qualifyScans ≤ 16 := by
  have hbit (k : Nat) : (b.getD 0 0#8).getLsbD k = decide (byteAt b 0 / 2 ^ k % 2 = 1) := getLsbD_eq_decide _ k
  have hhysteresis : byteAt b 5 ≤ 255 := Nat.lt_succ_iff.mp (byteAt_lt b 5)
  unfold parseChannel
  simp only [Option.ite_none_right_eq_some, Bool.and_eq_true, decide_eq_true_eq, ChannelSetting.valid_iff,
    Option.some.injEq, hbit, Nat.pow_zero, Nat.div_one, Nat.pow_one, Nat.reducePow]
  constructor
  · rintro ⟨⟨hflags, hhigh, hlow, -, hhyst, hscans⟩, rfl⟩
    exact ⟨hflags, rfl, rfl, rfl, rfl, rfl, rfl, rfl, rfl, hhigh, hlow, hhyst, hscans⟩
  · obtain ⟨enable, high, low, hysteresis, scans, trigHigh, trigLow, snapshot⟩ := x
    rintro ⟨hflags, rfl, rfl, rfl, rfl, rfl, rfl, rfl, rfl, hhigh, hlow, hhyst, hscans⟩
    exact ⟨⟨hflags, hhigh, hlow, hhysteresis, hhyst, hscans⟩, rfl⟩

theorem parseAnalog_iff_parts (body : List Byte) (a : AnalogSection) : parseAnalog body = some a ↔
    allSome ((List.range 4).map fun i => parseChannel (slice body (7 * i) 7)) = some a.channels ∧
    parseBool (byteAt body 30) = some a.dither ∧ a.interval = fieldAt body 28 2 ∧
    (a.interval = 0 ∨ a.dither = false ∨ 16 ≤ a.interval) := by
  unfold parseAnalog
  cases allSome ((List.range 4).map fun i => parseChannel (slice body (7 * i) 7)) with
  | none => simp
  | some channels =>
    cases parseBool (byteAt body 30) with
    | none => simp
    | some dither =>
      simp only [Option.ite_none_right_eq_some, Bool.or_eq_true, beq_iff_eq, Bool.not_eq_true', decide_eq_true_eq,
        Option.some.injEq, or_assoc]
      constructor
      · rintro ⟨hinterval, rfl⟩
        exact ⟨rfl, rfl, rfl, hinterval⟩
      · obtain ⟨ch, interval, dith⟩ := a
        rintro ⟨rfl, rfl, rfl, hinterval⟩
        exact ⟨hinterval, rfl⟩

theorem parseAnalog_iff (body : List Byte) (a : AnalogSection) : parseAnalog body = some a ↔ a.channels.length = 4 ∧
    (∀ (i flags : Nat) (x : ChannelSetting), i < 4 → flags = byteAt body (7 * i) → a.channels[i]? = some x →
      flags < 16 ∧ x.enable = decide (flags % 2 = 1) ∧ x.triggerHigh = decide (flags / 2 % 2 = 1) ∧
      x.triggerLow = decide (flags / 4 % 2 = 1) ∧ x.snapshot = decide (flags / 8 % 2 = 1) ∧
      x.high = fieldAt body (7 * i + 1) 2 ∧ x.low = fieldAt body (7 * i + 3) 2 ∧
      x.hysteresis = byteAt body (7 * i + 5) ∧ x.qualifyScans = byteAt body (7 * i + 6) ∧
      x.high ≤ 4095 ∧ x.low < x.high ∧ x.hysteresis < x.high - x.low ∧ 1 ≤ x.qualifyScans ∧ x.qualifyScans ≤ 16) ∧
    a.interval = fieldAt body 28 2 ∧ byteAt body 30 ≤ 1 ∧ a.dither = decide (byteAt body 30 = 1) ∧
    (a.interval = 0 ∨ a.dither = false ∨ 16 ≤ a.interval) := by
  rw [parseAnalog_iff_parts, allSome_range_iff, parseBool_iff]
  simp only [parseChannel_iff, byteAt_slice, fieldAt_slice, Nat.reduceLT, Nat.reduceLeDiff, Nat.reduceAdd, Nat.add_zero]
  constructor
  · rintro ⟨⟨hlength, hchannels⟩, ⟨hle, hdither⟩, hinterval, hallowed⟩
    refine ⟨hlength, ?_, hinterval, hle, hdither, hallowed⟩
    rintro i flags x hi rfl hx
    exact hchannels i x hi hx
  · rintro ⟨hlength, hchannels, hinterval, hle, hdither, hallowed⟩
    exact ⟨⟨hlength, fun i x hi hx => hchannels i _ x hi rfl hx⟩, ⟨hle, hdither⟩, hinterval, hallowed⟩

/-! ## The STATION section (R178, Table 10-19) -/

theorem StationSection.valid_iff (x : StationSection) : x.valid = true ↔
    16 ≤ x.postCount ∧ x.postCount ≤ 447 ∧ 1 ≤ x.postTime ∧ x.postTime ≤ 6000 ∧ x.holdLimit ≤ 255 ∧
    x.recordMask.toNat < 128 ∧ x.announceMask.toNat < 128 ∧ x.heardMask.toNat < 128 ∧ 1 ≤ x.period ∧ x.period ≤ 100 ∧
    2 ≤ x.tolerance ∧ x.tolerance ≤ 200 := by
  have hmask (m : BitVec 8) : (!m.getLsbD 7) = true ↔ m.toNat < 128 := by
    have := m.isLt
    rw [Bool.not_eq_true', getLsbD_eq_decide, decide_eq_false_iff_not]
    omega
  simp only [StationSection.valid, Bool.and_eq_true, decide_eq_true_eq, hmask, and_assoc]

theorem parseStation_iff_valid (body : List Byte) (x : StationSection) : parseStation body = some x ↔
    parseBool (byteAt body 0) = some x.capture ∧ x.postCount = fieldAt body 1 2 ∧ x.postTime = fieldAt body 3 2 ∧
    x.holdLimit = byteAt body 5 ∧ x.recordMask.toNat = byteAt body 6 ∧ x.announceMask.toNat = byteAt body 7 ∧
    x.heardMask.toNat = byteAt body 8 ∧ x.period = byteAt body 9 ∧ x.tolerance = byteAt body 10 ∧ x.valid = true := by
  have hmask (m : BitVec 8) (i : Nat) : m.toNat = byteAt body i ↔ m = body.getD i 0#8 := BitVec.toNat_inj
  unfold parseStation
  simp only [hmask]
  cases parseBool (byteAt body 0) with
  | none => simp
  | some capture =>
    simp only [Option.ite_none_right_eq_some, Option.some.injEq]
    constructor
    · rintro ⟨hvalid, rfl⟩
      exact ⟨rfl, rfl, rfl, rfl, rfl, rfl, rfl, rfl, rfl, hvalid⟩
    · obtain ⟨cap, count, time, hold, record, announce, heard, period, tolerance⟩ := x
      rintro ⟨rfl, rfl, rfl, rfl, rfl, rfl, rfl, rfl, rfl, hvalid⟩
      exact ⟨hvalid, rfl⟩

theorem parseStation_iff (body : List Byte) (x : StationSection) : parseStation body = some x ↔
    byteAt body 0 ≤ 1 ∧ x.capture = decide (byteAt body 0 = 1) ∧
    x.postCount = fieldAt body 1 2 ∧ 16 ≤ x.postCount ∧ x.postCount ≤ 447 ∧
    x.postTime = fieldAt body 3 2 ∧ 1 ≤ x.postTime ∧ x.postTime ≤ 6000 ∧ x.holdLimit = byteAt body 5 ∧
    x.recordMask.toNat = byteAt body 6 ∧ byteAt body 6 < 128 ∧ x.announceMask.toNat = byteAt body 7 ∧
    byteAt body 7 < 128 ∧ x.heardMask.toNat = byteAt body 8 ∧ byteAt body 8 < 128 ∧
    x.period = byteAt body 9 ∧ 1 ≤ x.period ∧ x.period ≤ 100 ∧
    x.tolerance = byteAt body 10 ∧ 2 ≤ x.tolerance ∧ x.tolerance ≤ 200 := by
  rw [parseStation_iff_valid, parseBool_iff, StationSection.valid_iff]
  have hhold : byteAt body 5 ≤ 255 := Nat.lt_succ_iff.mp (byteAt_lt body 5)
  constructor
  · rintro ⟨⟨hle, hcapture⟩, hfields⟩
    refine ⟨hle, hcapture, ?_⟩
    omega
  · rintro ⟨hle, hcapture, hfields⟩
    refine ⟨⟨hle, hcapture⟩, ?_⟩
    omega

/-! ## CONFIG as it is taken -/

/-- One section's tests: its length and its fields, and what an accepted one does (R175). -/
theorem section_tested {α : Type} {parsed : Option α} {fits : Prop} [Decidable fits] {wrap : α → SectionResult}
    {result : SectionResult} {code : Byte} {v w : State}
    (hresult : result = if fits then parsed.elim .outOfRange wrap else .outOfRange)
    (hdone : ∀ x, (wrap x).code = .done)
    (hacc : ∀ x, fits → parsed = some x → code = 0#8 ∧ v = { w with sc := w.sc.configure (wrap x) })
    (href : ¬fits ∨ parsed = none → code = 3#8 ∧ v = w) :
    code = result.code.code ∧ v = { w with sc := w.sc.configure result } := by
  by_cases hfits : fits
  · cases hparsed : parsed with
    | none =>
      obtain ⟨rfl, rfl⟩ := href (.inr hparsed)
      rw [hresult, if_pos hfits, hparsed]
      exact ⟨rfl, rfl⟩
    | some x =>
      obtain ⟨rfl, rfl⟩ := hacc x hfits hparsed
      rw [hresult, if_pos hfits, hparsed]
      exact ⟨by rw [Option.elim_some, hdone]; rfl, rfl⟩
  · obtain ⟨rfl, rfl⟩ := href (.inl hfits)
    rw [hresult, if_neg hfits]
    exact ⟨rfl, rfl⟩

theorem parseSection_unknown {p : List Byte} (h : byteAt p 0 = 0 ∨ 5 ≤ byteAt p 0) : parseSection p = .unknownSection := by
  unfold parseSection
  split
  case h_5 => rfl
  all_goals omega

end Sys2Proof.Machine
end

section
/-!
CONFIG, SETUP_END and RESTART as they are taken (R147, R151, R161 to R163, R175).
-/

namespace Sys2Proof.Machine

/-! ## CONFIG -/

/-- The answer and the state a section leaves are those of its tests (R175), for what O52 says of a code and a state. -/
theorem parseSection_spec {w v : State} {payload : List Byte} {code : Byte}
    (hunknown : byteAt payload 0 = 0 ∨ 5 ≤ byteAt payload 0 → code = 4#8 ∧ v = w)
    (hlow : byteAt payload 0 = 1 → (∀ x, payload.length = 31 → parseInputs (payload.drop 1) = some x →
        code = 0#8 ∧ v = { w with sc := w.sc.configure (.inputsLow x) }) ∧
      (payload.length ≠ 31 ∨ parseInputs (payload.drop 1) = none → code = 3#8 ∧ v = w))
    (hhigh : byteAt payload 0 = 2 → (∀ x, payload.length = 31 → parseInputs (payload.drop 1) = some x →
        code = 0#8 ∧ v = { w with sc := w.sc.configure (.inputsHigh x) }) ∧
      (payload.length ≠ 31 ∨ parseInputs (payload.drop 1) = none → code = 3#8 ∧ v = w))
    (hanalog : byteAt payload 0 = 3 → (∀ x, payload.length = 32 → parseAnalog (payload.drop 1) = some x →
        code = 0#8 ∧ v = { w with sc := w.sc.configure (.analog x) }) ∧
      (payload.length ≠ 32 ∨ parseAnalog (payload.drop 1) = none → code = 3#8 ∧ v = w))
    (hstation : byteAt payload 0 = 4 → (∀ x, payload.length = 12 → parseStation (payload.drop 1) = some x →
        code = 0#8 ∧ v = { w with sc := w.sc.configure (.station x) }) ∧
      (payload.length ≠ 12 ∨ parseStation (payload.drop 1) = none → code = 3#8 ∧ v = w)) :
    code = (parseSection payload).code.code ∧ v = { w with sc := w.sc.configure (parseSection payload) } := by
  have hnumber : byteAt payload 0 = 1 ∨ byteAt payload 0 = 2 ∨ byteAt payload 0 = 3 ∨ byteAt payload 0 = 4 ∨
      (byteAt payload 0 = 0 ∨ 5 ≤ byteAt payload 0) := by omega
  rcases hnumber with h | h | h | h | h
  · obtain ⟨hacc, href⟩ := hlow h
    refine section_tested (parsed := parseInputs (payload.drop 1)) (wrap := .inputsLow) ?_ (fun _ => rfl) hacc href
    unfold parseSection
    rw [h]
    dsimp only
    cases parseInputs (payload.drop 1) <;> simp only [beq_iff_eq, Option.elim]
  · obtain ⟨hacc, href⟩ := hhigh h
    refine section_tested (parsed := parseInputs (payload.drop 1)) (wrap := .inputsHigh) ?_ (fun _ => rfl) hacc href
    unfold parseSection
    rw [h]
    dsimp only
    cases parseInputs (payload.drop 1) <;> simp only [beq_iff_eq, Option.elim]
  · obtain ⟨hacc, href⟩ := hanalog h
    refine section_tested (parsed := parseAnalog (payload.drop 1)) (wrap := .analog) ?_ (fun _ => rfl) hacc href
    unfold parseSection
    rw [h]
    dsimp only
    cases parseAnalog (payload.drop 1) <;> simp only [beq_iff_eq, Option.elim]
  · obtain ⟨hacc, href⟩ := hstation h
    refine section_tested (parsed := parseStation (payload.drop 1)) (wrap := .station) ?_ (fun _ => rfl) hacc href
    unfold parseSection
    rw [h]
    dsimp only
    cases parseStation (payload.drop 1) <;> simp only [beq_iff_eq, Option.elim]
  · obtain ⟨rfl, rfl⟩ := hunknown h
    rw [parseSection_unknown h]
    exact ⟨rfl, rfl⟩

theorem State.takeConfig_setup {w : State} (hop : w.sc.op = .setup) (toAll : Bool) (payload : List Byte) :
    w.takeConfig toAll payload =
      State.answer toAll kindConfig (parseSection payload).code
        { w with sc := w.sc.configure (parseSection payload) } := by
  unfold State.takeConfig
  rw [if_pos hop]

theorem State.takeConfig_running {w : State} (hop : w.sc.op = .running) (toAll : Bool) (payload : List Byte) :
    w.takeConfig toAll payload =
      if toAll then w else w.placeReply kindResult [kindConfig, ResultCode.setupClosed.code] := by
  unfold State.takeConfig
  rw [if_neg (by rw [hop]; decide)]
  rfl

theorem State.accepted_sc (s : State) (dt : Nat) : (State.acceptReception (s.advance dt)).sc = s.sc := by simp

/-- Settles O52: CONFIG by the operating state, and the sections by their readers. -/
theorem configReplacesItsSectionWhole : Obligations.ConfigReplacesItsSectionWhole := by
  refine ⟨?_, parseInputs_iff, parseAnalog_iff, parseStation_iff⟩
  rintro s w v dt stamp dst payload code hline hdst hpos hlength howed rfl hunknown hlow hhigh hanalog hstation
  have hsc := State.accepted_sc s dt
  have hexec : exec (.config dt dst payload) s =
      .next ((State.acceptReception (s.advance dt)).takeConfig (dst == 31#8) payload) := by
    rw [exec_config_valid dt hline (dst_ne_zero hdst) hpos hlength, State.takeEither_here dt _ hdst howed]
  obtain ⟨hcode, hv⟩ := parseSection_spec hunknown (by rw [hsc]; exact hlow) (by rw [hsc]; exact hhigh)
    (by rw [hsc]; exact hanalog) (by rw [hsc]; exact hstation)
  rw [hexec]
  refine ⟨fun hop hall => ?_, fun hop hall => ?_, fun hop hall => ?_, fun hop hall => ?_⟩
  · rw [State.takeConfig_setup (by rw [hsc]; exact hop), ← hv, hall, State.answer_broadcast]
  · rw [State.takeConfig_setup (by rw [hsc]; exact hop), ← hv, State.answer_addressed hall, ← hcode]
    rfl
  · rw [State.takeConfig_running (by rw [hsc]; exact hop), hall]
    rfl
  · rw [State.takeConfig_running (by rw [hsc]; exact hop), beq_false_of_ne hall]
    rfl

/-! ## SETUP_END and RESTART -/

theorem exec_setupEnd_taken {s : State} {stamp : Nat} {dst : Byte} (dt : Nat) (levels : BitVec 12)
    (hline : s.lc.line = .receiving (some stamp))
    (hdst : dst = s.addressByte ∧ dst ≠ 0#8 ∧ dst ≠ 31#8 ∨ dst = 31#8) (howed : s.rh.restartOwed = false) :
    exec (.setupEnd dt dst levels) s =
      .next ((State.acceptReception (s.advance dt)).takeSetupEnd (dst == 31#8) levels) := by
  rw [exec_setupEnd_valid dt levels hline (dst_ne_zero hdst), State.takeEither_here dt _ hdst howed]

theorem State.takeSetupEnd_setup {w : State} (hop : w.sc.op = .setup) (toAll : Bool) (levels : BitVec 12) :
    w.takeSetupEnd toAll levels = (w.enterRunning levels).answer toAll kindSetupEnd .done := by
  unfold State.takeSetupEnd
  rw [if_pos hop]

theorem State.takeSetupEnd_running {w : State} (hop : w.sc.op = .running) (toAll : Bool) (levels : BitVec 12) :
    w.takeSetupEnd toAll levels =
      if toAll then w else w.placeReply kindResult [kindSetupEnd, ResultCode.setupClosed.code] := by
  unfold State.takeSetupEnd
  rw [if_neg (by rw [hop]; decide)]
  rfl

/-- RESTART puts its answer in the slot and owes the restart. -/
theorem State.takeRestart_eq (w : State) : w.takeRestart = { w.placeReply kindResult [0x28#8, 0#8] with
    rh := { slot := some { kind := 0x34#8, src := w.addressByte, dst := 31#8, payload := [0x28#8, 0#8] }
            restartOwed := true } } := by
  have hsrc : w.endReply.addressByte = w.addressByte := State.addressByte_of_straps (by simp)
  rw [← hsrc]
  rfl

/-- Settles O54: SETUP_END and RESTART taken, all requests under an owed restart, and those to another station. -/
theorem setupEndAndRestartAreTaken : Obligations.SetupEndAndRestartAreTaken := by
  constructor
  · rintro s w dt stamp dst levels hline hdst rfl
    have hsc := State.accepted_sc s dt
    have hzero := dst_ne_zero hdst
    refine ⟨fun howed => ?_, fun howed => ?_, fun hall hown => ?_⟩
    · rw [exec_setupEnd_taken dt levels hline hdst howed]
      refine ⟨fun hop hall => ?_, fun hop hall => ?_, fun hop hall => ?_, fun hop hall => ?_, fun hall => ?_⟩
      · rw [State.takeSetupEnd_setup (by rw [hsc]; exact hop), hall, State.answer_broadcast]
      · rw [State.takeSetupEnd_setup (by rw [hsc]; exact hop), State.answer_addressed hall]
        rfl
      · rw [State.takeSetupEnd_running (by rw [hsc]; exact hop), hall]
        rfl
      · rw [State.takeSetupEnd_running (by rw [hsc]; exact hop), beq_false_of_ne hall]
        rfl
      · have hown : dst = s.addressByte := (hdst.resolve_right hall).1
        refine ⟨_, exec_restart_valid dt hline hzero, ?_⟩
        rw [State.takeAddressed_here dt _ hown howed, State.takeRestart_eq, State.accepted_addressByte]
    · have howed' : (State.acceptReception (s.advance dt)).rh.restartOwed = true := by
        rw [State.accepted_rh]
        exact howed
      have haddressed (take : State → State) := (State.take_owed howed' dst take fun _ => id).1
      have heither (take : Bool → State → State) := (State.take_owed howed' dst id take).2
      refine ⟨?_, ?_, ?_, fun origin serial => ?_, fun page => ?_, fun start => ?_, ?_, fun payload hpos hlength => ?_⟩
      · rw [exec_setupEnd_valid dt levels hline hzero, heither]
      · rw [exec_restart_valid dt hline hzero, haddressed]
      · rw [exec_force_valid dt hline hzero, haddressed]
      · rw [exec_release_valid dt origin serial hline hzero, heither]
      · rw [exec_query_valid dt page hline hzero, haddressed]
      · rw [exec_fetch_valid dt start hline hzero, haddressed]
      · rw [exec_peers_valid dt hline hzero, haddressed]
      · rw [exec_config_valid dt hline hzero hpos hlength, heither]
    · rw [exec_restart_valid dt hline hzero, State.takeAddressed_ignored dt _ (.inl (by rw [hall]; exact hown.symm))]
  · rintro s w dt stamp dst hline hzero hown hall rfl
    refine ⟨?_, fun levels => ?_, fun origin serial => ?_, fun payload hpos hlength => ?_⟩
    · rw [exec_restart_valid dt hline hzero, State.takeAddressed_ignored dt _ (.inl hown)]
    · rw [exec_setupEnd_valid dt levels hline hzero, State.takeEither_elsewhere dt _ hown hall]
    · rw [exec_release_valid dt origin serial hline hzero, State.takeEither_elsewhere dt _ hown hall]
    · rw [exec_config_valid dt hline hzero hpos hlength, State.takeEither_elsewhere dt _ hown hall]

end Sys2Proof.Machine
end

section
/-!
The resets (R16 to R19, R101, R165, R166) and what a reset finds of the step it struck in.
-/

namespace Sys2Proof.Machine

/-! ## A step and the state it leads to -/

theorem Result.stateOr_of_next {r : Result} (s : State) {u : State} (h : r = .next u) : r.stateOr s = u := by
  rw [h]
  rfl

theorem State.struckBy_inStep (s : State) (e : EventStep) (passed : Nat) :
    s.struckBy (.inStep e passed) =
      if (State.runStep { s with cut := some passed } e).cut.isSome then s
      else State.runStep { s with cut := some passed } e := rfl

/-! ## What a retaining reset leaves (R14, R16, R19, R165, R172) -/

theorem State.beginRetaining_hr (cause : ResetCause) (struck : Struck) (v : State) :
    (v.beginRetaining cause (struck == .inFlight)).hr =
      if struck = .inFlight then { v.hr with check := .mismatched } else v.hr := by
  unfold State.beginRetaining
  by_cases h : struck = .inFlight
  · rw [if_pos h, beq_iff_eq.mpr h]
    rfl
  · rw [if_neg h, beq_false_of_ne h]
    rfl

theorem State.beginRetaining_clocks (cause : ResetCause) (inside : Bool) (v : State) :
    ((v.beginRetaining cause inside).cc.postClock = none ↔ v.cc.record.st.held = false) ∧
    ((v.beginRetaining cause inside).cc.frozenClock = none ↔ v.cc.record.st.isFrozen = false) := by
  unfold State.beginRetaining State.resetBlocks
  cases v.cc.record.st.held <;> cases v.cc.record.st.isFrozen <;> simp

/-- A supply that has passed below the power-on level in a held reset keeps the cause POWER_ON (R165). -/
theorem State.beginRetaining_cause (cause : ResetCause) (inside : Bool) (v : State) :
    (v.sc.resetHeld = true ∧ v.sc.belowPowerOn = true → (v.beginRetaining cause inside).sc.cause = .powerOn) ∧
    (v.sc.resetHeld = false ∨ v.sc.belowPowerOn = false → (v.beginRetaining cause inside).sc.cause = cause) ∧
    ((v.beginRetaining cause inside).sc.belowPowerOn = true ↔ v.sc.resetHeld = true ∧ v.sc.belowPowerOn = true) := by
  unfold State.beginRetaining
  cases v.sc.resetHeld <;> cases v.sc.belowPowerOn <;> simp

theorem State.beginRetaining_historyLost (cause : ResetCause) (inside : Bool) (v : State) :
    (v.beginRetaining cause inside).sc.historyLost = true ↔ v.sc.historyLost = true ∧ v.sc.op = .starting := by
  unfold State.beginRetaining
  simp

/-! ## The supply monitor's commands (R167, R183) -/

theorem execSupplyFallBelowWarning_unheld {s : State} (h : s.sc.resetHeld = false) (dt : Nat) :
    exec (.supplyFallBelowWarning dt) s = .next (s.advance dt).fallBelowWarning := by
  show execSupplyFallBelowWarning dt s = _
  simp [execSupplyFallBelowWarning, h]

theorem execResetEnd_held {s : State} (h : s.sc.resetHeld = true) (straps : Straps) (supply : SupplyCourse)
    (starting : Nat) (ending : StartingEnd) (levels : BitVec 12) :
    exec (.resetEnd straps supply starting ending levels) s =
      .next (s.endReset straps supply starting ending levels) := by
  show execResetEnd straps supply starting ending levels s = _
  simp [execResetEnd, h]

/-- Settles O55: the two kinds of reset, where one strikes, and the end of a held one. -/
theorem resetsStopEveryBlockAndComplete : Obligations.ResetsStopEveryBlockAndComplete := by
  refine ⟨fun s => ⟨s.beginPowerOn, rfl, ?_⟩, ?_, ⟨fun s => ⟨rfl, rfl, ?_⟩, fun s u => ?_⟩, fun s => ⟨fun hheld => ?_,
    fun hheld => ?_⟩, fun s struck => ⟨rfl, rfl⟩, ?_, fun s u dt hheld => ?_⟩
  case refine_1 => and_intros <;> rfl
  case refine_2 =>
    rintro s v t struck cause rfl hreset
    obtain rfl : t = (s.struckBy struck).beginRetaining cause (struck == .inFlight) := by
      rcases hreset with ⟨hexec, rfl⟩ | ⟨hexec, rfl⟩ | ⟨ht, rfl⟩
      · exact (Host.Outcome.next.inj hexec).symm
      · exact (Host.Outcome.next.inj hexec).symm
      · exact ht
    obtain ⟨hpost, hfrozen⟩ := State.beginRetaining_clocks cause (struck == .inFlight) (s.struckBy struck)
    obtain ⟨hpassed, hcause, hbelow⟩ := State.beginRetaining_cause cause (struck == .inFlight) (s.struckBy struck)
    exact ⟨rfl, rfl, rfl, rfl, rfl, rfl, rfl, rfl, rfl, rfl, rfl, rfl, rfl, rfl, State.beginRetaining_hr cause struck _,
      rfl, rfl, rfl, hpost, hfrozen, hpassed, hcause, hbelow, State.beginRetaining_historyLost cause _ _⟩
  case refine_3 =>
    rintro e passed u rfl
    rw [State.struckBy_inStep]
    exact ⟨fun hcut => by rw [hcut]; rfl, fun hcut => if_pos (Option.isSome_iff_ne_none.mpr hcut)⟩
  case refine_4 =>
    exact ⟨fun _ _ _ _ h => Result.stateOr_of_next s h, fun _ h => Result.stateOr_of_next s h,
      fun _ _ _ h => Result.stateOr_of_next s h, fun _ _ h => Result.stateOr_of_next s h,
      fun _ h => Result.stateOr_of_next s h,
      fun _ _ h => Result.stateOr_of_next s h, fun _ _ _ _ => ⟨fun h => Result.stateOr_of_next s h,
        fun h => Result.stateOr_of_next s h, fun h => Result.stateOr_of_next s h⟩,
      fun _ _ h => Result.stateOr_of_next s h, fun _ h => Result.stateOr_of_next s h⟩
  case refine_5 =>
    show execSupplyBelowRetentionLevel s = _
    simp [execSupplyBelowRetentionLevel, hheld]
  case refine_6 =>
    show execSupplyBelowRetentionLevel s = _
    simp [execSupplyBelowRetentionLevel, hheld]
  case refine_7 =>
    rintro s w straps supply starting levels hheld rfl
    rw [execResetEnd_held hheld, execResetEnd_held hheld, execResetEnd_held hheld]
    exact ⟨rfl, rfl, rfl⟩
  case refine_8 =>
    rw [execSupplyFallBelowWarning_unheld hheld]
    exact ⟨Host.Outcome.next.inj, Host.Outcome.next.inj, Host.Outcome.next.inj, Host.Outcome.next.inj⟩

/-! ## STARTING (R45, R46, R167, R169) -/

theorem straps_address_iff (straps : Straps) :
    (straps.address.toNat = 0 ∨ straps.address.toNat = 31) ↔ straps.address = 0#5 ∨ straps.address = 31#5 := by
  constructor <;> intro h <;> bv_omega

theorem State.readStraps_eq (straps : Straps) (s : State) : s.readStraps straps = { s with
    sc := { s.sc with
      straps
      config := if straps.profile then profile1 else profile0
      configured := ⟨false, false, false, false⟩
      conditions := if straps.address = 0#5 ∨ straps.address = 31#5
        then { s.sc.conditions with startFault := true } else s.sc.conditions }
    an := { s.an with dither := 2000 + straps.address.toNat }
    lc := { s.lc with generator := 1000 + straps.address.toNat } } := by
  unfold State.readStraps
  by_cases h : straps.address = 0#5 ∨ straps.address = 31#5
  · rw [if_pos ((straps_address_iff straps).mpr h), if_pos h]
    rfl
  · rw [if_neg (mt (straps_address_iff straps).mp h), if_neg h]
    rfl

theorem State.leaveStarting_usable {s : State} (hlow : 1 ≤ s.address) (hhigh : s.address ≤ 30) (levels : BitVec 12) :
    s.leaveStarting levels = if s.sc.straps.setup then
        { s.startReceiver with sc := { s.sc with op := .setup, setupSince := some s.tu.elapsed } }
      else s.startReceiver.enterRunning levels := by
  unfold State.leaveStarting
  rw [if_neg (by omega)]

/-- The restore of a power-on reset, and of a retaining one by what the check finds (R16, R46). -/
theorem State.restore_powerOn {s : State} (h : s.sc.cause = .powerOn) :
    s.restore = { s.discardHistory with sc := { s.sc with captHeld := false } } := by
  unfold State.restore
  rw [if_pos h]
  rfl

theorem State.restore_mismatched {s : State} (h : s.sc.cause ≠ .powerOn) (hcheck : s.hr.check = .mismatched) :
    s.restore = { s.discardHistory with sc := { s.sc with historyLost := true, captHeld := false } } := by
  unfold State.restore
  rw [if_neg h, hcheck]

theorem State.restore_matching {s : State} (h : s.sc.cause ≠ .powerOn) (hcheck : s.hr.check = .matching) :
    s.restore = { s.cutShort with sc := { s.cutShort.sc with captHeld := false } } := by
  unfold State.restore
  rw [if_neg h, hcheck]

theorem State.cutShort_kept {s : State} (h : s.cc.record.st.isPost = false) : s.cutShort = s := by
  unfold State.cutShort
  split
  case h_3 hst => simp [hst, CaptureState.isPost] at h
  all_goals rfl

theorem State.cutShort_post {s : State} {cur : Current} (h : s.cc.record.st = .post cur)
    (hcheck : s.hr.check = .matching) : s.cutShort = { s with
      cc := { s.cc with
        record := { s.cc.record with st := .frozen cur .cutShort }
        frozenClock := some (.stopped (Config.frozenElapsed s.drawn)) }
      drawn := s.drawn + 1 } := by
  have hring : { s.hr with check := .matching } = s.hr := by rw [← hcheck]
  unfold State.cutShort
  simp only [h, State.setRecord, hring]

/-- What the restore changes at all. -/
theorem State.restore_frame (s : State) : s.restore.cc.pendingTrigger = s.cc.pendingTrigger ∧
    s.restore = { s with
      hr := s.restore.hr, cc := s.restore.cc
      sc := { s.sc with captHeld := false, historyLost := s.restore.sc.historyLost }
      drawn := s.restore.drawn } := by
  by_cases hcause : s.sc.cause = .powerOn
  · rw [State.restore_powerOn hcause]
    exact ⟨rfl, rfl⟩
  · cases hcheck : s.hr.check with
    | mismatched =>
      rw [State.restore_mismatched hcause hcheck]
      exact ⟨rfl, rfl⟩
    | matching =>
      rw [State.restore_matching hcause hcheck]
      cases hst : s.cc.record.st with
      | post cur =>
        rw [State.cutShort_post hst hcheck]
        exact ⟨rfl, rfl⟩
      | off | armed | frozen =>
        rw [State.cutShort_kept (by rw [hst]; rfl)]
        exact ⟨rfl, rfl⟩

/-- Settles O56: the straps, the way out of STARTING, and the restore by cause and check. -/
theorem startingRestoresAndLeadsWhereTheStrapsSay : Obligations.StartingRestoresAndLeadsWhereTheStrapsSay := by
  refine ⟨fun s straps levels => ⟨State.readStraps_eq straps s, fun haddress => ?_, fun hlow hhigh hsetup => ?_,
    fun hlow hhigh hsetup => ?_⟩, ?_⟩
  · unfold State.leaveStarting
    rw [if_pos haddress]
  · rw [State.leaveStarting_usable hlow hhigh, if_pos hsetup]
    rfl
  · rw [State.leaveStarting_usable hlow hhigh, if_neg (by rw [hsetup]; decide)]
    rfl
  · rintro s t rfl
    obtain ⟨hpending, hframe⟩ := s.restore_frame
    refine ⟨rfl, hpending, fun hlost => ?_, fun hcause hcheck => ?_, hframe⟩
    · by_cases hcause : s.sc.cause = .powerOn
      · rw [State.restore_powerOn hcause]
        exact ⟨rfl, rfl, rfl, rfl, rfl, fun h => absurd hcause h⟩
      · rw [State.restore_mismatched hcause (hlost.resolve_left hcause)]
        exact ⟨rfl, rfl, rfl, rfl, rfl, fun _ => rfl⟩
    · rw [State.restore_matching hcause hcheck]
      cases hst : s.cc.record.st with
      | post cur =>
        rw [State.cutShort_post hst hcheck]
        refine ⟨rfl, rfl, rfl, rfl, nofun, fun cur' h => ?_⟩
        obtain rfl := CaptureState.post.inj h
        exact ⟨rfl, rfl⟩
      | off | armed | frozen =>
        rw [State.cutShort_kept (by rw [hst]; rfl)]
        exact ⟨rfl, rfl, rfl, rfl, fun _ => ⟨rfl, rfl⟩, nofun⟩

end Sys2Proof.Machine
end

section
/-!
Entry to RUNNING (R23, R47, R50, R170 to R172) and the supply monitor (R181, R182).
-/

namespace Sys2Proof.Machine

/-! ## Entry to RUNNING -/

/-- The capture state at entry to RUNNING, where none is in POST (R23, R47). -/
theorem State.captureAtRunning_eq {s : State} (h : s.cc.record.st.isPost = false) : s.captureAtRunning = { s with
    cc := if s.cc.record.st.isFrozen then { s.cc with frozenClock := some (.running s.tu.elapsed) }
      else { s.cc with record := { s.cc.record with st := if s.station.capture then .armed else .off } }
    hr := if s.cc.record.st.isFrozen then s.hr else { s.hr with check := .matching } } := by
  unfold State.captureAtRunning
  split
  case h_3 hst => simp [hst, CaptureState.isPost] at h
  all_goals
    next hst =>
      simp only [hst, CaptureState.isFrozen, Bool.false_eq_true, if_true, if_false] <;> rfl

/-- A point passed, by what is left of the step (R101). -/
theorem State.eq_passPoint {w v : State} (hnone : w.cut = none → v = w) (hzero : w.cut = some 0 → v = w.strike)
    (hsucc : ∀ n, w.cut = some (n + 1) → v = { w with cut := some n }) : v = w.passPoint := by
  unfold State.passPoint
  split
  case h_1 hcut => exact hnone hcut
  case h_2 hcut => exact hzero hcut
  case h_3 n hcut => exact hsucc n hcut

/-- Where a reset has struck at the point, nothing is emitted, so the loss of history may be read before it. -/
theorem State.passPoint_emit (w : State) (e : LocalEvent) :
    (if w.passPoint.sc.historyLost then w.passPoint.emit e else w.passPoint) =
      if w.sc.historyLost then w.passPoint.emit e else w.passPoint := by
  unfold State.passPoint
  split
  case h_1 => rfl
  case h_2 =>
    have hstopped : w.strike.sc.op ≠ .running := by simp [State.strike]
    rw [State.emit_notRunning e hstopped, ite_self, ite_self]
  case h_3 => rfl

theorem State.observedInputs_eq (levels : BitVec 12) (s : State) : s.observedInputs levels =
    (List.range 12).map fun n =>
      if (s.inputSetting n).sensitivity = .off then InputRecord.cleared
      else { level := some (levels.getLsbD n), qual := none, mode := .normal none none } := rfl

/-! ## The values of the opening entries (Table 10-11) -/

theorem byte_congr {m n : Nat} (h : m % 256 = n % 256) : BitVec.ofNat 8 m = BitVec.ofNat 8 n :=
  BitVec.eq_of_toNat_eq (by simpa using h)

theorem packStationStart_bytes (cause : ResetCause) (levels : BitVec 12) (profile : Bool) (marks : Marks) :
    natBE 6 (packStationStart cause levels profile marks) =
      [BitVec.ofNat 8 cause.code, BitVec.ofNat 8 (levels.toNat / 256), BitVec.ofNat 8 levels.toNat,
        if profile then 1#8 else 0#8,
        BitVec.ofNat 8 ((if marks.inputsLow then 1 else 0) + (if marks.inputsHigh then 2 else 0) +
          (if marks.analog then 4 else 0) + (if marks.station then 8 else 0)), 0#8] := by
  have hlevels := levels.isLt
  have hflags : (if profile then 1#8 else 0#8) = BitVec.ofNat 8 profile.toNat := by cases profile <;> rfl
  have hprofile := profile.toNat_le
  have hmarks : (if marks.inputsLow then 1 else 0) + (if marks.inputsHigh then 2 else 0) +
      (if marks.analog then 4 else 0) + (if marks.station then 8 else 0) =
      marks.inputsLow.toNat + 2 * marks.inputsHigh.toNat + 4 * marks.analog.toNat + 8 * marks.station.toNat := by
    simp only [Bool.toNat, Bool.cond_eq_ite, mul_ite, mul_one, mul_zero]
  have hmax : marks.inputsLow.toNat + 2 * marks.inputsHigh.toNat + 4 * marks.analog.toNat + 8 * marks.station.toNat ≤ 15 := by
    have := marks.inputsLow.toNat_le
    have := marks.inputsHigh.toNat_le
    have := marks.analog.toNat_le
    have := marks.station.toNat_le
    omega
  rw [natBE_six, hflags, hmarks]
  unfold packStationStart byteOf
  generalize marks.inputsLow.toNat + 2 * marks.inputsHigh.toNat + 4 * marks.analog.toNat + 8 * marks.station.toNat = m
    at hmax
  congr 1
  · exact byte_congr (by omega)
  congr 1
  · exact byte_congr (by omega)
  congr 1
  · exact byte_congr (by omega)
  congr 1
  · exact byte_congr (by omega)
  congr 1
  · exact byte_congr (by omega)
  congr 1
  · exact byte_congr (by omega)

/-- Presence marks are added bit by bit, from bit `k` up. -/
theorem packPeers_foldl (present : List Bool) (a : Nat) {x k : Nat} (hx : x < 2 ^ k) :
    (present.foldl (fun (acc : Nat × Nat) b => (acc.1 + b.toNat * acc.2, acc.2 * 2)) (x, 2 ^ k)).1.testBit a = true ↔
      x.testBit a = true ∨ k ≤ a ∧ present[a - k]? = some true := by
  induction present generalizing x k with
  | nil => simp
  | cons b rest ih =>
    have hnext : x + b.toNat * 2 ^ k < 2 ^ (k + 1) := by
      have := Nat.mul_le_mul_right (2 ^ k) b.toNat_le
      rw [Nat.pow_succ]
      omega
    have hbit : (x + b.toNat * 2 ^ k).testBit a = if a < k then x.testBit a else b.toNat.testBit (a - k) := by
      rw [Nat.add_comm, Nat.mul_comm]
      exact Nat.testBit_two_pow_mul_add _ hx a
    rw [List.foldl_cons, show 2 ^ k * 2 = 2 ^ (k + 1) from (Nat.pow_succ 2 k).symm, ih hnext, hbit]
    rcases Nat.lt_trichotomy a k with h | rfl | h
    · simp [h, show ¬k + 1 ≤ a by omega, show ¬k ≤ a by omega]
    · cases b <;> simp [Nat.testBit_lt_two_pow hx]
    · obtain ⟨m, rfl⟩ : ∃ m, a = k + 1 + m := ⟨a - (k + 1), by omega⟩
      have hlow : x.testBit (k + 1 + m) = false :=
        Nat.testBit_lt_two_pow (lt_of_lt_of_le hx (Nat.pow_le_pow_right (by decide) (by omega)))
      have hhigh : b.toNat.testBit (m + 1) = false := by cases b <;> simp [Nat.testBit_succ]
      simp [show k + 1 + m - k = m + 1 by omega, show ¬k + 1 + m < k by omega, show k ≤ k + 1 + m by omega, hlow, hhigh]

theorem packPeers_testBit (present : List Bool) (a : Nat) :
    (packPeers present).testBit a = true ↔ 1 ≤ a ∧ present[a - 1]? = some true := by
  refine (packPeers_foldl present a (x := 0) (k := 1) (by decide)).trans ?_
  simp

/-- Settles O57: the entry as the chain of its operations, then the two packed values. -/
theorem entryToRunningOpensThePeriod : Obligations.EntryToRunningOpensThePeriod := by
  refine ⟨?_, fun s since levels hop hsince => ?_, packStationStart_bytes, packPeers_testBit, rfl⟩
  · rintro s w v lost levels hw hnone hzero hsucc hlost hpost
    have hopened : s.opened = w := by
      rw [hw]
      exact State.captureAtRunning_eq (s := { s with sc := { s.sc with op := .running, setupSince := none } }) hpost
    have hcut : w.cut = s.cut := by rw [hw]
    have hv : v = w.passPoint := State.eq_passPoint (by rw [hcut]; exact hnone) (by rw [hcut]; exact hzero)
      (by rw [hcut]; exact hsucc)
    refine ⟨_, rfl, ?_⟩
    have hlost' : lost = if w.passPoint.sc.historyLost then State.emit
        { time := s.tu.timeCount, kind := .historyLost, value := some s.sc.cause.code, opening := true } w.passPoint
        else w.passPoint := by
      rw [State.passPoint_emit, hlost, hv, hw]
    rw [hlost', ← hopened]
    rfl
  · show execSetupWindowExpiry levels s = _
    unfold execSetupWindowExpiry
    rw [hop, hsince]
    rfl

/-! ## The supply monitor -/

theorem State.restored_eq {s : State} {since : Nat} (h : s.sc.supply = .warning (some since)) :
    s.supplyRestored = State.emit { time := (s.advanceTo (since + 10000)).tu.timeCount, kind := .supplyRestored }
      { s.advanceTo (since + 10000) with sc := { s.sc with
          supply := .normal, conditions := { s.sc.conditions with supplyWarning := false } } } := by
  unfold State.supplyRestored
  simp only [h, State.setCondition, Conditions.put, State.advanceTo_sc]
  rfl

/-- Settles O58: each command by the state of the supply. -/
theorem supplyMonitorWarnsAndRestores : Obligations.SupplyMonitorWarnsAndRestores := by
  rintro s w dt hheld rfl
  have hsc : (s.advance dt).sc = s.sc := State.advance_sc dt s
  refine ⟨fun hnormal => ⟨?_, ?_, ?_⟩, fun timer hwarning => ⟨?_, ?_, fun htimer => ?_, ?_⟩⟩
  · rw [execSupplyFallBelowWarning_unheld hheld]
    unfold State.fallBelowWarning
    simp only [hsc, hnormal, State.setCondition, Conditions.put]
  · show Host.Outcome.next (s.advance dt).riseAboveHysteresis = _
    unfold State.riseAboveHysteresis
    simp only [hsc, hnormal]
  · show Host.Outcome.next (s.advance dt).dipBelowHysteresis = _
    unfold State.dipBelowHysteresis
    simp only [hsc, hnormal]
  · rw [execSupplyFallBelowWarning_unheld hheld]
    unfold State.fallBelowWarning
    simp only [hsc, hwarning]
  · show Host.Outcome.next (s.advance dt).dipBelowHysteresis = _
    unfold State.dipBelowHysteresis
    simp only [hsc, hwarning]
  · show Host.Outcome.next (s.advance dt).riseAboveHysteresis = _
    unfold State.riseAboveHysteresis
    simp only [hsc, hwarning, htimer]
  · rintro since v rfl rfl
    exact congrArg Host.Outcome.next (State.restored_eq hwarning)

end Sys2Proof.Machine
end

section
/-!
The payloads of the station frames (R106, R188, Tables 10-4 to 10-7): when one is read, and as what.
-/

namespace Sys2Proof.Machine

/-! ## Subjects (R188, Table 10-10) -/

theorem SubjectSort.lists_iff (k : Kind) (c : Nat) : k.subjectSort.lists c = true ↔
    k.class ≤ 2 ∧ c ≤ 11 ∨ (k.class = 3 ∨ k.class = 4) ∧ c ≤ 3 ∨ k = .analogFault ∧ (c = 16 ∨ c = 17) ∨
      (k = .peerSeen ∨ k = .peerLost ∨ k.class = 7) ∧ 1 ≤ c ∧ c ≤ 30 := by
  cases k <;> simp [Kind.subjectSort, SubjectSort.lists, Kind.class, subjectRefH, subjectRefL]

theorem SubjectSort.le_of_lists {sort : SubjectSort} {c : Nat} (h : sort.lists c = true) : c ≤ 30 := by
  cases sort <;> simp [SubjectSort.lists, subjectRefH, subjectRefL] at h <;> omega

theorem subjectAllowed_of_lists {k : Kind} {c : Nat} (h : k.subjectSort.lists c = true) : subjectAllowed k c = true := by
  simp [subjectAllowed, h]

theorem subjectAllowed_of_lt {k : Kind} {c : Nat} (h : 30 < c) : subjectAllowed k c = false := by
  have hlists : k.subjectSort.lists c = false := by
    rw [← Bool.not_eq_true]
    intro hc
    exact absurd (SubjectSort.le_of_lists hc) (by omega)
  simp [subjectAllowed, hlists, subjectListed, h]

/-! ## Beacons (Table 10-4) -/

/-- A beacon read: its codes, and the tag that a capture state in POST or FROZEN brings. -/
theorem parseBeacon_iff_parts (p : List Byte) (b : BeaconFields) : parseBeacon p = some b ↔
    SyncState.ofCode (byteAt p 6) = some b.sync ∧ CaptureCode.ofCode (byteAt p 7) = some b.capture ∧
    b.sender = fieldAt p 0 6 ∧
    if b.capture.holdsTag then p.length = 16 ∧ ∃ t, parseTimedTag (slice p 8 8) = some t ∧ b.tag = some t
    else p.length = 8 ∧ b.tag = none := by
  obtain ⟨sender, sync, capture, tag⟩ := b
  unfold parseBeacon
  cases SyncState.ofCode (byteAt p 6) with
  | none => simp
  | some sync' =>
    cases CaptureCode.ofCode (byteAt p 7) with
    | none => simp
    | some capture' =>
      cases hholds : capture'.holdsTag with
      | false =>
        simp only [hholds, Bool.false_eq_true, if_false, Option.ite_none_right_eq_some, beq_iff_eq, Option.some.injEq,
          BeaconFields.mk.injEq]
        constructor
        · rintro ⟨hlength, rfl, rfl, rfl, rfl⟩
          simp [hholds, hlength]
        · rintro ⟨rfl, rfl, rfl, h⟩
          simp only [hholds, Bool.false_eq_true, if_false] at h
          exact ⟨h.1, rfl, rfl, rfl, h.2.symm⟩
      | true =>
        simp only [hholds, if_true, Option.ite_none_right_eq_some, beq_iff_eq, Option.map_eq_some_iff, Option.some.injEq,
          BeaconFields.mk.injEq]
        constructor
        · rintro ⟨hlength, t, ht, rfl, rfl, rfl, rfl⟩
          simp [hholds, hlength, ht]
        · rintro ⟨rfl, rfl, rfl, h⟩
          simp only [hholds, if_true] at h
          obtain ⟨hlength, t, ht, rfl⟩ := h
          exact ⟨hlength, t, ht, rfl, rfl, rfl, rfl⟩

theorem parseBeacon_iff (p : List Byte) (b : BeaconFields) : parseBeacon p = some b ↔
    b.sender = fieldAt p 0 6 ∧
    (byteAt p 6 = 0 ∧ b.sync = .free ∨ byteAt p 6 = 1 ∧ b.sync = .synced ∨ byteAt p 6 = 2 ∧ b.sync = .lost) ∧
    ((byteAt p 7 = 0 ∧ b.capture = .off ∨ byteAt p 7 = 1 ∧ b.capture = .armed) ∧ p.length = 8 ∧ b.tag = none ∨
      (byteAt p 7 = 2 ∧ b.capture = .post ∨ byteAt p 7 = 3 ∧ b.capture = .frozen) ∧ p.length = 16 ∧
        1 ≤ byteAt p 8 ∧ byteAt p 8 ≤ 30 ∧ 1 ≤ byteAt p 9 ∧
        b.tag = some { tag := { origin := byteAt p 8, serial := byteAt p 9 }, time := fieldAt p 10 6 }) := by
  have htag (t : TimedTag) : parseTimedTag (slice p 8 8) = some t ↔ 1 ≤ byteAt p 8 ∧ byteAt p 8 ≤ 30 ∧
      1 ≤ byteAt p 9 ∧ t = { tag := { origin := byteAt p 8, serial := byteAt p 9 }, time := fieldAt p 10 6 } := by
    simp only [parseTimedTag_iff, byteAt_slice, fieldAt_slice, Nat.reduceLT, Nat.reduceLeDiff, Nat.reduceAdd]
  have hexists : (∃ t, parseTimedTag (slice p 8 8) = some t ∧ b.tag = some t) ↔ 1 ≤ byteAt p 8 ∧ byteAt p 8 ≤ 30 ∧
      1 ≤ byteAt p 9 ∧ b.tag = some { tag := { origin := byteAt p 8, serial := byteAt p 9 }, time := fieldAt p 10 6 } := by
    simp only [htag, and_assoc, exists_and_left, exists_eq_left]
  rw [parseBeacon_iff_parts, SyncState.ofCode_iff, CaptureCode.ofCode_iff, hexists]
  cases b.capture with
  | off | armed | post | frozen =>
    simp only [CaptureCode.holdsTag, reduceCtorEq, and_true, and_false, or_false, false_or, false_and, Bool.false_eq_true,
      if_false, if_true]
    exact ⟨fun ⟨hsync, hcode, hsender, htag⟩ => ⟨hsender, hsync, hcode, htag⟩,
      fun ⟨hsender, hsync, hcode, htag⟩ => ⟨hsync, hcode, hsender, htag⟩⟩

/-- Sender time and codes stand where a beacon's payload puts them, whatever tag follows. -/
theorem beaconPayload_places {b : BeaconFields} (htime : b.sender ≤ timeTop) :
    fieldAt (beaconPayload b) 0 6 = b.sender ∧ byteAt (beaconPayload b) 6 = b.sync.code ∧
      byteAt (beaconPayload b) 7 = b.capture.code :=
  ⟨fieldAt_eq rfl (lt_of_le_of_lt htime (by decide)), byteAt_eq rfl (lt_of_le_of_lt b.sync.code_le (by decide)),
    byteAt_eq rfl (lt_of_le_of_lt b.capture.code_le (by decide))⟩

/-- A beacon without a tag, and one with it, read back. -/
theorem parseBeacon_untagged {b : BeaconFields} (htime : b.sender ≤ timeTop)
    (hcapture : b.capture = .off ∨ b.capture = .armed) (htag : b.tag = none) : parseBeacon (beaconPayload b) = some b := by
  obtain ⟨hsender, hsync, hcode⟩ := beaconPayload_places htime
  have hholds : b.capture.holdsTag = false := by rcases hcapture with h | h <;> rw [h] <;> rfl
  have hlength : (beaconPayload b).length = 8 := by simp [beaconPayload, htag]
  rw [parseBeacon_iff_parts, hsender, hsync, hcode, hholds]
  exact ⟨SyncState.ofCode_code _, CaptureCode.ofCode_code _, rfl, hlength, htag⟩

theorem parseBeacon_tagged {b : BeaconFields} {t : TimedTag} (htime : b.sender ≤ timeTop)
    (hcapture : b.capture = .post ∨ b.capture = .frozen) (htag : b.tag = some t)
    (ht : parseTimedTag (timedTagBytes t) = some t) : parseBeacon (beaconPayload b) = some b := by
  obtain ⟨hsender, hsync, hcode⟩ := beaconPayload_places htime
  have hholds : b.capture.holdsTag = true := by rcases hcapture with h | h <;> rw [h] <;> rfl
  have hlength : (beaconPayload b).length = 16 := by simp [beaconPayload, htag, timedTagBytes_length]
  have hbytes : slice (beaconPayload b) 8 8 = timedTagBytes t := by
    unfold beaconPayload
    rw [htag]
    rfl
  rw [parseBeacon_iff_parts, hsender, hsync, hcode, hholds, hbytes]
  exact ⟨SyncState.ofCode_code _, CaptureCode.ofCode_code _, rfl, hlength, t, ht, htag⟩

/-! ## Records (Table 10-7) -/

/-- One of two fields, told by a presence bit. -/
theorem presence_iff {bit : Bool} {n : Nat} (h : bit = decide (n % 2 = 1)) (A B : Prop) :
    (if bit then A else B) ↔ n % 2 = 1 ∧ A ∨ n % 2 = 0 ∧ B := by
  rcases Nat.mod_two_eq_zero_or_one n with h' | h' <;> simp [h, h']

theorem parseRecord_slice_iff (src : Nat) (p : List Byte) (k : Nat) (d : Draft) :
    parseRecord src (slice p k 20) = some d ↔
      d.origin = src ∧ d.capture = none ∧ d.time = fieldAt p k 6 ∧
      byteAt p (k + 7) = 32 * d.kind.class + d.kind.number ∧
      (byteAt p (k + 9) = 0 ∧ d.sync = .free ∨ byteAt p (k + 9) = 1 ∧ d.sync = .synced ∨
        byteAt p (k + 9) = 2 ∧ d.sync = .lost) ∧
      (byteAt p (k + 6) / 32 % 2 = 1 ∧ subjectAllowed d.kind (byteAt p (k + 8)) = true ∧
          d.subject = some (byteAt p (k + 8)) ∨
        byteAt p (k + 6) / 32 % 2 = 0 ∧ byteAt p (k + 8) = 0 ∧ d.subject = none) ∧
      (byteAt p (k + 6) / 64 % 2 = 1 ∧ d.value = some (fieldAt p (k + 10) 6) ∨
        byteAt p (k + 6) / 64 % 2 = 0 ∧ fieldAt p (k + 10) 6 = 0 ∧ d.value = none) ∧
      (byteAt p (k + 6) / 128 % 2 = 1 ∧ 1 ≤ fieldAt p (k + 16) 4 ∧ d.originSeq = some (fieldAt p (k + 16) 4) ∨
        byteAt p (k + 6) / 128 % 2 = 0 ∧ (d.kind.class = 7 ∨ fieldAt p (k + 16) 4 = 0) ∧ d.originSeq = none) := by
  have hbit (i : Nat) : ((slice p k 20).getD 6 0#8).getLsbD i = decide (byteAt p (k + 6) / 2 ^ i % 2 = 1) := by
    rw [getLsbD_eq_decide, ← byteAt_slice p k 20 6 (by decide)]
    rfl
  have hsubject : hasSubject (slice p k 20) = decide (byteAt p (k + 6) / 32 % 2 = 1) := hbit 5
  have hvalue : hasValue (slice p k 20) = decide (byteAt p (k + 6) / 64 % 2 = 1) := hbit 6
  have horiginSeq : hasOriginSeq (slice p k 20) = decide (byteAt p (k + 6) / 128 % 2 = 1) := hbit 7
  rw [parseRecord_iff, presence_iff hsubject, presence_iff hvalue, presence_iff horiginSeq, Kind.ofCode_iff,
    SyncState.ofCode_iff]
  simp only [byteAt_slice, fieldAt_slice, Nat.reduceLT, Nat.reduceLeDiff, Nat.reduceAdd, Nat.add_zero,
    Nat.one_le_iff_ne_zero]
  exact ⟨fun ⟨hkind, hsync, horigin, htime, hcapture, hrest⟩ => ⟨horigin, hcapture, htime, hkind, hsync, hrest⟩,
    fun ⟨horigin, hcapture, htime, hkind, hsync, hrest⟩ => ⟨hkind, hsync, horigin, htime, hcapture, hrest⟩⟩

/-! ## EVENT frames (Table 10-6) -/

theorem parseEvent_iff_parts (src : Nat) (p : List Byte) (e : EventFields) : parseEvent src p = some e ↔
    e.number = byteAt p 0 ∧ 1 ≤ byteAt p 0 ∧ e.drops = byteAt p 1 ∧ byteAt p 2 ≤ 3 ∧ p.length = 3 + 20 * byteAt p 2 ∧
    allSome ((List.range (byteAt p 2)).map fun i => parseRecord src (slice p (3 + 20 * i) 20)) = some e.records := by
  obtain ⟨number, drops, records⟩ := e
  unfold parseEvent
  simp only [batchRecords, Option.ite_none_right_eq_some, Bool.and_eq_true, bne_iff_ne, beq_iff_eq,
    Option.map_eq_some_iff, EventFields.mk.injEq, Nat.one_le_iff_ne_zero]
  constructor
  · rintro ⟨⟨⟨hnumber, hcount⟩, hlength⟩, records', hrecords, rfl, rfl, rfl⟩
    exact ⟨rfl, hnumber, rfl, of_decide_eq_true hcount, hlength, hrecords⟩
  · rintro ⟨rfl, hnumber, rfl, hcount, hlength, hrecords⟩
    exact ⟨⟨⟨hnumber, decide_eq_true hcount⟩, hlength⟩, records, hrecords, rfl, rfl, rfl⟩

theorem parseEvent_iff (src : Nat) (p : List Byte) (e : EventFields) : parseEvent src p = some e ↔
    e.number = byteAt p 0 ∧ 1 ≤ byteAt p 0 ∧ e.drops = byteAt p 1 ∧ byteAt p 2 ≤ 3 ∧ p.length = 3 + 20 * byteAt p 2 ∧
    e.records.length = byteAt p 2 ∧ ∀ i d, i < byteAt p 2 → e.records[i]? = some d →
      parseRecord src (slice p (3 + 20 * i) 20) = some d := by
  rw [parseEvent_iff_parts, allSome_range_iff]

/-! ## A record read back -/

theorem Kind.code_lt (k : Kind) : k.code < 256 := by cases k <;> decide

/-- The presence bits of a record are those of its fields. -/
theorem recordBytes_presence (d : Draft) : hasOriginSeq (recordBytes d) = d.originSeq.isSome ∧
    hasValue (recordBytes d) = d.value.isSome ∧ hasSubject (recordBytes d) = d.subject.isSome := by
  have hbyte : (recordBytes d).getD 6 0#8 = presenceByte d := rfl
  have horigin : d.origin % 32 < 32 := Nat.mod_lt _ (by decide)
  unfold hasOriginSeq hasValue hasSubject
  rw [hbyte, getLsbD_eq_decide, getLsbD_eq_decide, getLsbD_eq_decide]
  unfold presenceByte
  generalize d.origin % 32 = low at horigin
  have hvalue (a b c : Bool) : (byteOf (128 * a.toNat + 64 * b.toNat + 32 * c.toNat + low)).toNat =
      128 * a.toNat + 64 * b.toNat + 32 * c.toNat + low := byteOf_toNat (by
    have := a.toNat_le
    have := b.toNat_le
    have := c.toNat_le
    omega)
  rw [hvalue]
  cases d.originSeq.isSome <;> cases d.value.isSome <;> cases d.subject.isSome <;>
    simp only [Bool.toNat_true, Bool.toNat_false, decide_eq_true_eq, decide_eq_false_iff_not] <;> omega

/-- The fields of a record without capture content stand where Table 10-7 puts them. -/
theorem recordBytes_places {d : Draft} (hcapture : d.capture = none) (htime : d.time ≤ timeTop)
    (hvalue : ∀ v, d.value = some v → v ≤ timeTop) (hseq : ∀ q, d.originSeq = some q → 1 ≤ q ∧ q < seqLimit)
    (hsubject : ∀ c, d.subject = some c → d.kind.subjectSort.lists c = true) :
    fieldAt (recordBytes d) 0 6 = d.time ∧ byteAt (recordBytes d) 7 = d.kind.code ∧
    byteAt (recordBytes d) 8 = d.subject.getD 0 ∧ byteAt (recordBytes d) 9 = d.sync.code ∧
    fieldAt (recordBytes d) 10 6 = d.value.getD 0 ∧ fieldAt (recordBytes d) 16 4 = d.originSeq.getD 0 := by
  have hsubject' : d.subject.getD 0 < 256 := by
    cases h : d.subject with
    | none => decide
    | some c => exact lt_of_le_of_lt (SubjectSort.le_of_lists (hsubject c h)) (by decide)
  have hvalue' : d.value.getD 0 < 256 ^ 6 := by
    cases h : d.value with
    | none => decide
    | some v => exact lt_of_le_of_lt (hvalue v h) (by decide)
  have hseq' : d.originSeq.getD 0 < 256 ^ 4 := by
    cases h : d.originSeq with
    | none => decide
    | some q => exact (hseq q h).2
  have htail : slice (recordBytes d) 16 4 = natBE 4 (d.originSeq.getD 0) := by
    unfold recordBytes
    rw [hcapture]
    rfl
  exact ⟨fieldAt_eq rfl (lt_of_le_of_lt htime (by decide)), byteAt_eq rfl d.kind.code_lt, byteAt_eq rfl hsubject',
    byteAt_eq rfl (lt_of_le_of_lt d.sync.code_le (by decide)), fieldAt_eq rfl hvalue', fieldAt_eq htail hseq'⟩

theorem parseRecord_recordBytes {d : Draft} (src : Nat) (hcapture : d.capture = none) (htime : d.time ≤ timeTop)
    (hvalue : ∀ v, d.value = some v → v ≤ timeTop) (hseq : ∀ q, d.originSeq = some q → 1 ≤ q ∧ q < seqLimit)
    (hsubject : ∀ c, d.subject = some c → d.kind.subjectSort.lists c = true) :
    parseRecord src (recordBytes d) = some { d with origin := src } := by
  obtain ⟨htime', hkind, hsubj, hsync, hval, horiginSeq⟩ := recordBytes_places hcapture htime hvalue hseq hsubject
  obtain ⟨hasSeq, hasVal, hasSubj⟩ := recordBytes_presence d
  rw [parseRecord_iff, hasSeq, hasVal, hasSubj, htime', hkind, hsubj, hsync, hval, horiginSeq]
  refine ⟨Kind.ofCode_code _, SyncState.ofCode_code _, rfl, rfl, hcapture, ?_, ?_, ?_⟩
  · cases h : d.subject with
    | none => exact ⟨rfl, rfl⟩
    | some c => exact ⟨subjectAllowed_of_lists (hsubject c h), rfl⟩
  · cases h : d.value with
    | none => exact ⟨rfl, rfl⟩
    | some v => rfl
  · cases h : d.originSeq with
    | none => exact ⟨.inr rfl, rfl⟩
    | some q => exact ⟨Nat.one_le_iff_ne_zero.mp (hseq q h).1, rfl⟩

/-- Members of one length stand one after the other. -/
theorem slice_flatMap {α : Type} {f : α → List Byte} {n : Nat} (hf : ∀ a, (f a).length = n) (l : List α) {i : Nat} {a : α}
    (ha : l[i]? = some a) : slice (l.flatMap f) (n * i) n = f a := by
  induction l generalizing i with
  | nil => simp at ha
  | cons b l ih =>
    cases i with
    | zero =>
      obtain rfl : b = a := by simpa using ha
      simp [slice, ← hf b]
    | succ i =>
      have hdrop : slice ((b :: l).flatMap f) (n * (i + 1)) n = slice (l.flatMap f) (n * i) n := by
        rw [slice, slice, List.flatMap_cons, Nat.mul_succ, Nat.add_comm, ← List.drop_drop, ← hf b, List.drop_left]
      rw [hdrop]
      exact ih (by simpa using ha)

theorem parseEvent_eventPayload {e : EventFields} (src : Nat) (hlow : 1 ≤ e.number) (hhigh : e.number ≤ 255)
    (hdrops : e.drops ≤ 255) (hcount : e.records.length ≤ 3)
    (hrecords : ∀ d ∈ e.records, parseRecord src (recordBytes d) = some { d with origin := src }) :
    parseEvent src (eventPayload e) = some { e with records := e.records.map fun d => { d with origin := src } } := by
  have hnumber : byteAt (eventPayload e) 0 = e.number := byteAt_eq rfl (by omega)
  have hdropByte : byteAt (eventPayload e) 1 = e.drops := byteAt_eq rfl (by omega)
  have hcountByte : byteAt (eventPayload e) 2 = e.records.length := byteAt_eq rfl (by omega)
  have hlength : (eventPayload e).length = 3 + 20 * e.records.length := by
    simp [eventPayload, List.length_flatMap, recordBytes_length]
    omega
  rw [parseEvent_iff, hnumber, hdropByte, hcountByte]
  refine ⟨rfl, hlow, rfl, hcount, hlength, List.length_map _, fun i d hi hd => ?_⟩
  rw [List.getElem?_map] at hd
  obtain ⟨d', hd', rfl⟩ := Option.map_eq_some_iff.mp hd
  have hslice : slice (eventPayload e) (3 + 20 * i) 20 = recordBytes d' := by
    rw [← slice_flatMap recordBytes_length e.records hd']
    rw [slice, slice, ← List.drop_drop]
    rfl
  rw [hslice]
  exact hrecords d' (List.mem_of_getElem? hd')

/-- Settles O60: the payloads read back, and exactly what is read of any bytes. -/
theorem stationPayloadsReadBack : Obligations.StationPayloadsReadBack := by
  refine ⟨⟨fun b htime => ⟨fun hcapture htag => parseBeacon_untagged htime hcapture htag, ?_⟩,
    fun t h1 h2 h3 h4 h5 => parseTimedTag_bytes t h1 h2 h3 h4 h5⟩, ?_, parseBeacon_iff, fun p t => parseTimedTag_iff p t, ?_,
    fun k c => ⟨SubjectSort.lists_iff k c, subjectAllowed_of_lists, subjectAllowed_of_lt⟩⟩
  · intro hcapture t htag h1 h2 h3 h4 h5
    exact parseBeacon_tagged htime hcapture htag (parseTimedTag_bytes t h1 h2 h3 h4 h5)
  · intro e src hlow hhigh hdrops hcount hrecords
    refine parseEvent_eventPayload src hlow hhigh hdrops hcount fun d hd => ?_
    obtain ⟨htime, hcapture, -, hseq, hvalue, hsubject⟩ := hrecords d hd
    exact parseRecord_recordBytes src hcapture htime hvalue hseq hsubject
  · intro src p e
    rw [parseEvent_iff]
    simp only [parseRecord_slice_iff]
    constructor
    · rintro ⟨hnumber, hpos, hdrops, hcount, hlength, hrecords, hall⟩
      refine ⟨hnumber, hpos, hdrops, hcount, hlength, hrecords, ?_⟩
      rintro i k presence d hi rfl rfl hd
      exact hall i d hi hd
    · rintro ⟨hnumber, hpos, hdrops, hcount, hlength, hrecords, hall⟩
      exact ⟨hnumber, hpos, hdrops, hcount, hlength, hrecords, fun i d hi hd => hall i _ _ d hi rfl rfl hd⟩

end Sys2Proof.Machine
end
